-- ==== Sys2Proof/Word.lean ====
section
/-!
DEFINITION. The word types of the machine (spec/00_scope.md R6, R8): 32-bit words, 8-bit bytes, and register
numbers. Arithmetic is that of `BitVec`: `+`, `-`, `*` modulo 2^32, `BitVec.toInt` the spec's `signed(v)`,
`BitVec.toNat` the unsigned value.
-/

namespace Sys2Proof

/-- A 32-bit register, address or data value (00_scope.md R6 `XLEN`, R8). -/
abbrev Word := BitVec 32

/-- One byte of memory (20_memory.md R70). -/
abbrev Byte := BitVec 8

/-- The number of a general register `r0` to `r31`, or of a coprocessor-0 register (10_state.md R20, R29). -/
abbrev RegIdx := Fin 32

end Sys2Proof
end

