-- ==== Sys2Proof/Syntax.lean ====
section
/-!
DEFINITION. The instructions, one constructor for each of the 72 rows of spec/opcode_table.json in the table's
order (spec/30_encoding.md R138). Operands stand in the assembler's order (R143). A field that the spec says is not
examined (R139) is no operand, but for the fields the table names (`code`, `cofun`) and `sel` (see WellFormed).
-/

namespace Sys2Proof

/-- The instruction set (30_encoding.md R138). `brk` is `break`, which is a word of Lean's own. -/
inductive Instr where
  /-- `sll rd, rt, shamt` (41_alu_register.md R201). -/
  | sll (rd rt : RegIdx) (shamt : BitVec 5)
  /-- `srl rd, rt, shamt` (41_alu_register.md R202). -/
  | srl (rd rt : RegIdx) (shamt : BitVec 5)
  /-- `sra rd, rt, shamt` (41_alu_register.md R203). -/
  | sra (rd rt : RegIdx) (shamt : BitVec 5)
  /-- `sllv rd, rt, rs` (41_alu_register.md R204). -/
  | sllv (rd rt rs : RegIdx)
  /-- `srlv rd, rt, rs` (41_alu_register.md R205). -/
  | srlv (rd rt rs : RegIdx)
  /-- `srav rd, rt, rs` (41_alu_register.md R206). -/
  | srav (rd rt rs : RegIdx)
  /-- `jr rs` (44_branches_jumps.md R274). -/
  | jr (rs : RegIdx)
  /-- `jalr rd, rs` (44_branches_jumps.md R275). -/
  | jalr (rd rs : RegIdx)
  /-- `syscall`; `code` is bits 25..6, which the hardware ignores (46_traps.md R320). -/
  | syscall (code : BitVec 20)
  /-- `break`; `code` is bits 25..6, which the hardware ignores (46_traps.md R321). -/
  | brk (code : BitVec 20)
  /-- `mfhi rd` (43_muldiv.md R245). -/
  | mfhi (rd : RegIdx)
  /-- `mthi rs` (43_muldiv.md R247). -/
  | mthi (rs : RegIdx)
  /-- `mflo rd` (43_muldiv.md R246). -/
  | mflo (rd : RegIdx)
  /-- `mtlo rs` (43_muldiv.md R248). -/
  | mtlo (rs : RegIdx)
  /-- `mult rs, rt` (43_muldiv.md R241). -/
  | mult (rs rt : RegIdx)
  /-- `multu rs, rt` (43_muldiv.md R242). -/
  | multu (rs rt : RegIdx)
  /-- `div rs, rt` (43_muldiv.md R243). -/
  | div (rs rt : RegIdx)
  /-- `divu rs, rt` (43_muldiv.md R244). -/
  | divu (rs rt : RegIdx)
  /-- `add rd, rs, rt` (41_alu_register.md R191). -/
  | add (rd rs rt : RegIdx)
  /-- `addu rd, rs, rt` (41_alu_register.md R192). -/
  | addu (rd rs rt : RegIdx)
  /-- `sub rd, rs, rt` (41_alu_register.md R193). -/
  | sub (rd rs rt : RegIdx)
  /-- `subu rd, rs, rt` (41_alu_register.md R194). -/
  | subu (rd rs rt : RegIdx)
  /-- `and rd, rs, rt` (41_alu_register.md R195). -/
  | and (rd rs rt : RegIdx)
  /-- `or rd, rs, rt` (41_alu_register.md R196). -/
  | or (rd rs rt : RegIdx)
  /-- `xor rd, rs, rt` (41_alu_register.md R197). -/
  | xor (rd rs rt : RegIdx)
  /-- `nor rd, rs, rt` (41_alu_register.md R198). -/
  | nor (rd rs rt : RegIdx)
  /-- `slt rd, rs, rt` (41_alu_register.md R199). -/
  | slt (rd rs rt : RegIdx)
  /-- `sltu rd, rs, rt` (41_alu_register.md R200). -/
  | sltu (rd rs rt : RegIdx)
  /-- `bltzal rs, label` (44_branches_jumps.md R270). -/
  | bltzal (rs : RegIdx) (imm : BitVec 16)
  /-- `bgezal rs, label` (44_branches_jumps.md R271). -/
  | bgezal (rs : RegIdx) (imm : BitVec 16)
  /-- `bltz rs, label`; `sel` is instr[20:17], any value but 0b1000 (44_branches_jumps.md R268). -/
  | bltz (rs : RegIdx) (sel : BitVec 4) (imm : BitVec 16)
  /-- `bgez rs, label`; `sel` is instr[20:17], any value but 0b1000 (44_branches_jumps.md R269). -/
  | bgez (rs : RegIdx) (sel : BitVec 4) (imm : BitVec 16)
  /-- `j target` (44_branches_jumps.md R272). -/
  | j (target : BitVec 26)
  /-- `jal target` (44_branches_jumps.md R273). -/
  | jal (target : BitVec 26)
  /-- `beq rs, rt, label` (44_branches_jumps.md R264). -/
  | beq (rs rt : RegIdx) (imm : BitVec 16)
  /-- `bne rs, rt, label` (44_branches_jumps.md R265). -/
  | bne (rs rt : RegIdx) (imm : BitVec 16)
  /-- `blez rs, label` (44_branches_jumps.md R266). -/
  | blez (rs : RegIdx) (imm : BitVec 16)
  /-- `bgtz rs, label` (44_branches_jumps.md R267). -/
  | bgtz (rs : RegIdx) (imm : BitVec 16)
  /-- `addi rt, rs, imm` (42_alu_immediate.md R221). -/
  | addi (rt rs : RegIdx) (imm : BitVec 16)
  /-- `addiu rt, rs, imm` (42_alu_immediate.md R222). -/
  | addiu (rt rs : RegIdx) (imm : BitVec 16)
  /-- `slti rt, rs, imm` (42_alu_immediate.md R223). -/
  | slti (rt rs : RegIdx) (imm : BitVec 16)
  /-- `sltiu rt, rs, imm` (42_alu_immediate.md R224). -/
  | sltiu (rt rs : RegIdx) (imm : BitVec 16)
  /-- `andi rt, rs, imm` (42_alu_immediate.md R225). -/
  | andi (rt rs : RegIdx) (imm : BitVec 16)
  /-- `ori rt, rs, imm` (42_alu_immediate.md R226). -/
  | ori (rt rs : RegIdx) (imm : BitVec 16)
  /-- `xori rt, rs, imm` (42_alu_immediate.md R227). -/
  | xori (rt rs : RegIdx) (imm : BitVec 16)
  /-- `lui rt, imm` (42_alu_immediate.md R228). -/
  | lui (rt : RegIdx) (imm : BitVec 16)
  /-- `mfc0 rt, $rd` (45_coprocessor.md R290, R291). -/
  | mfc0 (rt rd : RegIdx)
  /-- `mtc0 rt, $rd` (45_coprocessor.md R292, R293). -/
  | mtc0 (rt rd : RegIdx)
  /-- `rfe` (45_coprocessor.md R294). -/
  | rfe
  /-- `cop1`; `cofun` is bits 25..0, which are ignored (45_coprocessor.md R296). -/
  | cop1 (cofun : BitVec 26)
  /-- `cop2`; `cofun` is bits 25..0, which are ignored (45_coprocessor.md R297). -/
  | cop2 (cofun : BitVec 26)
  /-- `cop3`; `cofun` is bits 25..0, which are ignored (45_coprocessor.md R298). -/
  | cop3 (cofun : BitVec 26)
  /-- `lb rt, imm(rs)` (40_loads_stores.md R164). -/
  | lb (rt rs : RegIdx) (imm : BitVec 16)
  /-- `lh rt, imm(rs)` (40_loads_stores.md R166). -/
  | lh (rt rs : RegIdx) (imm : BitVec 16)
  /-- `lwl rt, imm(rs)` (40_loads_stores.md R169). -/
  | lwl (rt rs : RegIdx) (imm : BitVec 16)
  /-- `lw rt, imm(rs)` (40_loads_stores.md R168). -/
  | lw (rt rs : RegIdx) (imm : BitVec 16)
  /-- `lbu rt, imm(rs)` (40_loads_stores.md R165). -/
  | lbu (rt rs : RegIdx) (imm : BitVec 16)
  /-- `lhu rt, imm(rs)` (40_loads_stores.md R167). -/
  | lhu (rt rs : RegIdx) (imm : BitVec 16)
  /-- `lwr rt, imm(rs)` (40_loads_stores.md R170). -/
  | lwr (rt rs : RegIdx) (imm : BitVec 16)
  /-- `sb rt, imm(rs)` (40_loads_stores.md R171). -/
  | sb (rt rs : RegIdx) (imm : BitVec 16)
  /-- `sh rt, imm(rs)` (40_loads_stores.md R172). -/
  | sh (rt rs : RegIdx) (imm : BitVec 16)
  /-- `swl rt, imm(rs)` (40_loads_stores.md R174). -/
  | swl (rt rs : RegIdx) (imm : BitVec 16)
  /-- `sw rt, imm(rs)` (40_loads_stores.md R173). -/
  | sw (rt rs : RegIdx) (imm : BitVec 16)
  /-- `swr rt, imm(rs)` (40_loads_stores.md R175). -/
  | swr (rt rs : RegIdx) (imm : BitVec 16)
  /-- `lwc0 rt, imm(rs)` (45_coprocessor.md R299). -/
  | lwc0 (rt rs : RegIdx) (imm : BitVec 16)
  /-- `lwc1 rt, imm(rs)` (45_coprocessor.md R300). -/
  | lwc1 (rt rs : RegIdx) (imm : BitVec 16)
  /-- `lwc2 rt, imm(rs)` (45_coprocessor.md R301). -/
  | lwc2 (rt rs : RegIdx) (imm : BitVec 16)
  /-- `lwc3 rt, imm(rs)` (45_coprocessor.md R302). -/
  | lwc3 (rt rs : RegIdx) (imm : BitVec 16)
  /-- `swc0 rt, imm(rs)` (45_coprocessor.md R303). -/
  | swc0 (rt rs : RegIdx) (imm : BitVec 16)
  /-- `swc1 rt, imm(rs)` (45_coprocessor.md R304). -/
  | swc1 (rt rs : RegIdx) (imm : BitVec 16)
  /-- `swc2 rt, imm(rs)` (45_coprocessor.md R305). -/
  | swc2 (rt rs : RegIdx) (imm : BitVec 16)
  /-- `swc3 rt, imm(rs)` (45_coprocessor.md R306). -/
  | swc3 (rt rs : RegIdx) (imm : BitVec 16)
  deriving DecidableEq, Repr

/-- The instruction's name, as spec/opcode_table.json spells it. -/
def Instr.mnemonic : Instr → String
  | .sll _ _ _ => "sll"
  | .srl _ _ _ => "srl"
  | .sra _ _ _ => "sra"
  | .sllv _ _ _ => "sllv"
  | .srlv _ _ _ => "srlv"
  | .srav _ _ _ => "srav"
  | .jr _ => "jr"
  | .jalr _ _ => "jalr"
  | .syscall _ => "syscall"
  | .brk _ => "break"
  | .mfhi _ => "mfhi"
  | .mthi _ => "mthi"
  | .mflo _ => "mflo"
  | .mtlo _ => "mtlo"
  | .mult _ _ => "mult"
  | .multu _ _ => "multu"
  | .div _ _ => "div"
  | .divu _ _ => "divu"
  | .add _ _ _ => "add"
  | .addu _ _ _ => "addu"
  | .sub _ _ _ => "sub"
  | .subu _ _ _ => "subu"
  | .and _ _ _ => "and"
  | .or _ _ _ => "or"
  | .xor _ _ _ => "xor"
  | .nor _ _ _ => "nor"
  | .slt _ _ _ => "slt"
  | .sltu _ _ _ => "sltu"
  | .bltzal _ _ => "bltzal"
  | .bgezal _ _ => "bgezal"
  | .bltz _ _ _ => "bltz"
  | .bgez _ _ _ => "bgez"
  | .j _ => "j"
  | .jal _ => "jal"
  | .beq _ _ _ => "beq"
  | .bne _ _ _ => "bne"
  | .blez _ _ => "blez"
  | .bgtz _ _ => "bgtz"
  | .addi _ _ _ => "addi"
  | .addiu _ _ _ => "addiu"
  | .slti _ _ _ => "slti"
  | .sltiu _ _ _ => "sltiu"
  | .andi _ _ _ => "andi"
  | .ori _ _ _ => "ori"
  | .xori _ _ _ => "xori"
  | .lui _ _ => "lui"
  | .mfc0 _ _ => "mfc0"
  | .mtc0 _ _ => "mtc0"
  | .rfe => "rfe"
  | .cop1 _ => "cop1"
  | .cop2 _ => "cop2"
  | .cop3 _ => "cop3"
  | .lb _ _ _ => "lb"
  | .lh _ _ _ => "lh"
  | .lwl _ _ _ => "lwl"
  | .lw _ _ _ => "lw"
  | .lbu _ _ _ => "lbu"
  | .lhu _ _ _ => "lhu"
  | .lwr _ _ _ => "lwr"
  | .sb _ _ _ => "sb"
  | .sh _ _ _ => "sh"
  | .swl _ _ _ => "swl"
  | .sw _ _ _ => "sw"
  | .swr _ _ _ => "swr"
  | .lwc0 _ _ _ => "lwc0"
  | .lwc1 _ _ _ => "lwc1"
  | .lwc2 _ _ _ => "lwc2"
  | .lwc3 _ _ _ => "lwc3"
  | .swc0 _ _ _ => "swc0"
  | .swc1 _ _ _ => "swc1"
  | .swc2 _ _ _ => "swc2"
  | .swc3 _ _ _ => "swc3"

end Sys2Proof
end

