-- ==== Sys2Proof/WellFormed.lean ====
section
/-!
DEFINITION. Which instruction terms stand for an instruction word. Register numbers, shift amounts, immediates and
targets are bounded by their types; the one relation between fields that the encoding imposes is on the BCONDZ rows
(spec/44_branches_jumps.md R268, R269): `instr[20:17] = 0b1000` is the linking form and never `bltz` or `bgez`.
-/

namespace Sys2Proof

/-- The check on an instruction term (44_branches_jumps.md R263, R268, R269). -/
def Instr.wellFormed : Instr → Bool
  | .bltz _ sel _ => sel != 0b1000#4
  | .bgez _ sel _ => sel != 0b1000#4
  | _ => true

/-- The instruction term stands for a word. -/
abbrev Instr.WellFormed (i : Instr) : Prop := i.wellFormed = true

end Sys2Proof
end

