-- ==== Sys2Proof/Decode.lean ====
section
/-!
DEFINITION. The decoder, total on every word and on any bytes, rejecting by name (spec/30_encoding.md R130 to R140),
and after it the encoder and the opcode table of R138, written from the same tables. A rejected word is no fault of
the machine: the step takes `IllegalInstr` for it (spec/46_traps.md R322).
-/

namespace Sys2Proof

/-! ## Fields (30_encoding.md R131) -/

/-- `v[hi:lo]` for a field of `len` bits from bit `lo` up (00_scope.md R7). -/
def field (w : Word) (lo len : Nat) : BitVec len := w.extractLsb' lo len

/-- `op`, bits 31..26. -/
def opField (w : Word) : BitVec 6 := field w 26 6

/-- `rs`, bits 25..21. -/
def rsField (w : Word) : RegIdx := (field w 21 5).toFin

/-- `rt`, bits 20..16. -/
def rtField (w : Word) : RegIdx := (field w 16 5).toFin

/-- `rd`, bits 15..11. -/
def rdField (w : Word) : RegIdx := (field w 11 5).toFin

/-- `shamt`, bits 10..6. -/
def shamtField (w : Word) : BitVec 5 := field w 6 5

/-- `funct`, bits 5..0. -/
def functField (w : Word) : BitVec 6 := field w 0 6

/-- `imm16`, bits 15..0. -/
def immField (w : Word) : BitVec 16 := field w 0 16

/-- `target26`, bits 25..0. -/
def targetField (w : Word) : BitVec 26 := field w 0 26

/-! ## The decoder -/

/-- Why a word or a list of bytes is no instruction (30_encoding.md R133, R140). -/
inductive DecodeError where
  /-- A primary opcode marked `-` in R135. -/
  | unassignedOpcode (op : BitVec 6)
  /-- `op = 0x00` with a function code marked `-` in R136. -/
  | unassignedFunct (funct : BitVec 6)
  /-- `op = 0x10` with `instr[25:21]` none of 0x00, 0x04, 0x10 (R137, 45_coprocessor.md R295). -/
  | unassignedCop0 (selector : RegIdx)
  /-- Fewer than four bytes: an instruction is one 32-bit word (R130). -/
  | truncated
  deriving DecidableEq, Repr

/-- The SPECIAL table, `op = 0x00`, by `funct` (30_encoding.md R136). -/
def decodeSpecial (w : Word) : Except DecodeError Instr :=
  match functField w with
  | 0x00#6 => .ok (.sll (rdField w) (rtField w) (shamtField w))
  | 0x02#6 => .ok (.srl (rdField w) (rtField w) (shamtField w))
  | 0x03#6 => .ok (.sra (rdField w) (rtField w) (shamtField w))
  | 0x04#6 => .ok (.sllv (rdField w) (rtField w) (rsField w))
  | 0x06#6 => .ok (.srlv (rdField w) (rtField w) (rsField w))
  | 0x07#6 => .ok (.srav (rdField w) (rtField w) (rsField w))
  | 0x08#6 => .ok (.jr (rsField w))
  | 0x09#6 => .ok (.jalr (rdField w) (rsField w))
  | 0x0C#6 => .ok (.syscall (field w 6 20))
  | 0x0D#6 => .ok (.brk (field w 6 20))
  | 0x10#6 => .ok (.mfhi (rdField w))
  | 0x11#6 => .ok (.mthi (rsField w))
  | 0x12#6 => .ok (.mflo (rdField w))
  | 0x13#6 => .ok (.mtlo (rsField w))
  | 0x18#6 => .ok (.mult (rsField w) (rtField w))
  | 0x19#6 => .ok (.multu (rsField w) (rtField w))
  | 0x1A#6 => .ok (.div (rsField w) (rtField w))
  | 0x1B#6 => .ok (.divu (rsField w) (rtField w))
  | 0x20#6 => .ok (.add (rdField w) (rsField w) (rtField w))
  | 0x21#6 => .ok (.addu (rdField w) (rsField w) (rtField w))
  | 0x22#6 => .ok (.sub (rdField w) (rsField w) (rtField w))
  | 0x23#6 => .ok (.subu (rdField w) (rsField w) (rtField w))
  | 0x24#6 => .ok (.and (rdField w) (rsField w) (rtField w))
  | 0x25#6 => .ok (.or (rdField w) (rsField w) (rtField w))
  | 0x26#6 => .ok (.xor (rdField w) (rsField w) (rtField w))
  | 0x27#6 => .ok (.nor (rdField w) (rsField w) (rtField w))
  | 0x2A#6 => .ok (.slt (rdField w) (rsField w) (rtField w))
  | 0x2B#6 => .ok (.sltu (rdField w) (rsField w) (rtField w))
  | funct => .error (.unassignedFunct funct)

/-- BCONDZ, `op = 0x01`: every `rt` value is a branch; `instr[20:17] = 0b1000` links and `instr[16]` is the sense of
the test (30_encoding.md R137, 44_branches_jumps.md R263). -/
def decodeBcondz (w : Word) : Instr :=
  let sel := field w 17 4
  if sel = 0b1000#4 then
    if w.getLsbD 16 then .bgezal (rsField w) (immField w) else .bltzal (rsField w) (immField w)
  else
    if w.getLsbD 16 then .bgez (rsField w) sel (immField w) else .bltz (rsField w) sel (immField w)

/-- COP0, `op = 0x10`, by `instr[25:21]`; `rfe` is recognised by the selector alone (30_encoding.md R137). -/
def decodeCop0 (w : Word) : Except DecodeError Instr :=
  match field w 21 5 with
  | 0x00#5 => .ok (.mfc0 (rtField w) (rdField w))
  | 0x04#5 => .ok (.mtc0 (rtField w) (rdField w))
  | 0x10#5 => .ok .rfe
  | selector => .error (.unassignedCop0 selector.toFin)

/-- The instruction a word stands for: the primary table (30_encoding.md R133, R135). -/
def decode (w : Word) : Except DecodeError Instr :=
  match opField w with
  | 0x00#6 => decodeSpecial w
  | 0x01#6 => .ok (decodeBcondz w)
  | 0x02#6 => .ok (.j (targetField w))
  | 0x03#6 => .ok (.jal (targetField w))
  | 0x04#6 => .ok (.beq (rsField w) (rtField w) (immField w))
  | 0x05#6 => .ok (.bne (rsField w) (rtField w) (immField w))
  | 0x06#6 => .ok (.blez (rsField w) (immField w))
  | 0x07#6 => .ok (.bgtz (rsField w) (immField w))
  | 0x08#6 => .ok (.addi (rtField w) (rsField w) (immField w))
  | 0x09#6 => .ok (.addiu (rtField w) (rsField w) (immField w))
  | 0x0A#6 => .ok (.slti (rtField w) (rsField w) (immField w))
  | 0x0B#6 => .ok (.sltiu (rtField w) (rsField w) (immField w))
  | 0x0C#6 => .ok (.andi (rtField w) (rsField w) (immField w))
  | 0x0D#6 => .ok (.ori (rtField w) (rsField w) (immField w))
  | 0x0E#6 => .ok (.xori (rtField w) (rsField w) (immField w))
  | 0x0F#6 => .ok (.lui (rtField w) (immField w))
  | 0x10#6 => decodeCop0 w
  | 0x11#6 => .ok (.cop1 (targetField w))
  | 0x12#6 => .ok (.cop2 (targetField w))
  | 0x13#6 => .ok (.cop3 (targetField w))
  | 0x20#6 => .ok (.lb (rtField w) (rsField w) (immField w))
  | 0x21#6 => .ok (.lh (rtField w) (rsField w) (immField w))
  | 0x22#6 => .ok (.lwl (rtField w) (rsField w) (immField w))
  | 0x23#6 => .ok (.lw (rtField w) (rsField w) (immField w))
  | 0x24#6 => .ok (.lbu (rtField w) (rsField w) (immField w))
  | 0x25#6 => .ok (.lhu (rtField w) (rsField w) (immField w))
  | 0x26#6 => .ok (.lwr (rtField w) (rsField w) (immField w))
  | 0x28#6 => .ok (.sb (rtField w) (rsField w) (immField w))
  | 0x29#6 => .ok (.sh (rtField w) (rsField w) (immField w))
  | 0x2A#6 => .ok (.swl (rtField w) (rsField w) (immField w))
  | 0x2B#6 => .ok (.sw (rtField w) (rsField w) (immField w))
  | 0x2E#6 => .ok (.swr (rtField w) (rsField w) (immField w))
  | 0x30#6 => .ok (.lwc0 (rtField w) (rsField w) (immField w))
  | 0x31#6 => .ok (.lwc1 (rtField w) (rsField w) (immField w))
  | 0x32#6 => .ok (.lwc2 (rtField w) (rsField w) (immField w))
  | 0x33#6 => .ok (.lwc3 (rtField w) (rsField w) (immField w))
  | 0x38#6 => .ok (.swc0 (rtField w) (rsField w) (immField w))
  | 0x39#6 => .ok (.swc1 (rtField w) (rsField w) (immField w))
  | 0x3A#6 => .ok (.swc2 (rtField w) (rsField w) (immField w))
  | 0x3B#6 => .ok (.swc3 (rtField w) (rsField w) (immField w))
  | op => .error (.unassignedOpcode op)

/-- A little-endian word from its four bytes, lowest address first (20_memory.md R90). -/
def wordOfBytes (b0 b1 b2 b3 : Byte) : Word := b3 ++ b2 ++ b1 ++ b0

/-- The decoder on bytes as they lie in memory: the instruction and the bytes after it (30_encoding.md R130). -/
def decodeBytes : List Byte → Except DecodeError (Instr × List Byte)
  | b0 :: b1 :: b2 :: b3 :: rest => (decode (wordOfBytes b0 b1 b2 b3)).map (·, rest)
  | _ => .error .truncated

/-! ## The encoder -/

/-- An R-format word (30_encoding.md R132). -/
def rWord (op : BitVec 6) (rs rt rd : RegIdx) (shamt : BitVec 5) (funct : BitVec 6) : Word :=
  op ++ BitVec.ofFin (w := 5) rs ++ BitVec.ofFin (w := 5) rt ++ BitVec.ofFin (w := 5) rd ++ shamt ++ funct

/-- An I-format word (30_encoding.md R132). -/
def iWord (op : BitVec 6) (rs rt : RegIdx) (imm : BitVec 16) : Word :=
  op ++ BitVec.ofFin (w := 5) rs ++ BitVec.ofFin (w := 5) rt ++ imm

/-- A J-format word, and the shape of the whole-opcode coprocessor words (30_encoding.md R132, R138). -/
def jWord (op : BitVec 6) (target : BitVec 26) : Word := op ++ target

/-- A BCONDZ word: the `rt` field is `instr[20:17]` and `instr[16]` (30_encoding.md R137). -/
def bcondzWord (rs : RegIdx) (sel : BitVec 4) (sense : BitVec 1) (imm : BitVec 16) : Word :=
  0x01#6 ++ BitVec.ofFin (w := 5) rs ++ sel ++ sense ++ imm

/-- A `syscall` or `break` word: the code field stands in bits 25..6 (46_traps.md R320). -/
def codeWord (code : BitVec 20) (funct : BitVec 6) : Word := 0x00#6 ++ code ++ funct

/-- The word of an instruction; fields the hardware does not examine are zero, and `rfe` is the canonical
`0x42000010` (30_encoding.md R135 to R138). -/
def encode : Instr → Word
  | .sll rd rt shamt => rWord 0x00#6 0 rt rd shamt 0x00#6
  | .srl rd rt shamt => rWord 0x00#6 0 rt rd shamt 0x02#6
  | .sra rd rt shamt => rWord 0x00#6 0 rt rd shamt 0x03#6
  | .sllv rd rt rs => rWord 0x00#6 rs rt rd 0 0x04#6
  | .srlv rd rt rs => rWord 0x00#6 rs rt rd 0 0x06#6
  | .srav rd rt rs => rWord 0x00#6 rs rt rd 0 0x07#6
  | .jr rs => rWord 0x00#6 rs 0 0 0 0x08#6
  | .jalr rd rs => rWord 0x00#6 rs 0 rd 0 0x09#6
  | .syscall code => codeWord code 0x0C#6
  | .brk code => codeWord code 0x0D#6
  | .mfhi rd => rWord 0x00#6 0 0 rd 0 0x10#6
  | .mthi rs => rWord 0x00#6 rs 0 0 0 0x11#6
  | .mflo rd => rWord 0x00#6 0 0 rd 0 0x12#6
  | .mtlo rs => rWord 0x00#6 rs 0 0 0 0x13#6
  | .mult rs rt => rWord 0x00#6 rs rt 0 0 0x18#6
  | .multu rs rt => rWord 0x00#6 rs rt 0 0 0x19#6
  | .div rs rt => rWord 0x00#6 rs rt 0 0 0x1A#6
  | .divu rs rt => rWord 0x00#6 rs rt 0 0 0x1B#6
  | .add rd rs rt => rWord 0x00#6 rs rt rd 0 0x20#6
  | .addu rd rs rt => rWord 0x00#6 rs rt rd 0 0x21#6
  | .sub rd rs rt => rWord 0x00#6 rs rt rd 0 0x22#6
  | .subu rd rs rt => rWord 0x00#6 rs rt rd 0 0x23#6
  | .and rd rs rt => rWord 0x00#6 rs rt rd 0 0x24#6
  | .or rd rs rt => rWord 0x00#6 rs rt rd 0 0x25#6
  | .xor rd rs rt => rWord 0x00#6 rs rt rd 0 0x26#6
  | .nor rd rs rt => rWord 0x00#6 rs rt rd 0 0x27#6
  | .slt rd rs rt => rWord 0x00#6 rs rt rd 0 0x2A#6
  | .sltu rd rs rt => rWord 0x00#6 rs rt rd 0 0x2B#6
  | .bltzal rs imm => bcondzWord rs 0b1000#4 0#1 imm
  | .bgezal rs imm => bcondzWord rs 0b1000#4 1#1 imm
  | .bltz rs sel imm => bcondzWord rs sel 0#1 imm
  | .bgez rs sel imm => bcondzWord rs sel 1#1 imm
  | .j target => jWord 0x02#6 target
  | .jal target => jWord 0x03#6 target
  | .beq rs rt imm => iWord 0x04#6 rs rt imm
  | .bne rs rt imm => iWord 0x05#6 rs rt imm
  | .blez rs imm => iWord 0x06#6 rs 0 imm
  | .bgtz rs imm => iWord 0x07#6 rs 0 imm
  | .addi rt rs imm => iWord 0x08#6 rs rt imm
  | .addiu rt rs imm => iWord 0x09#6 rs rt imm
  | .slti rt rs imm => iWord 0x0A#6 rs rt imm
  | .sltiu rt rs imm => iWord 0x0B#6 rs rt imm
  | .andi rt rs imm => iWord 0x0C#6 rs rt imm
  | .ori rt rs imm => iWord 0x0D#6 rs rt imm
  | .xori rt rs imm => iWord 0x0E#6 rs rt imm
  | .lui rt imm => iWord 0x0F#6 0 rt imm
  | .mfc0 rt rd => rWord 0x10#6 0x00 rt rd 0 0
  | .mtc0 rt rd => rWord 0x10#6 0x04 rt rd 0 0
  | .rfe => 0x42000010#32
  | .cop1 cofun => jWord 0x11#6 cofun
  | .cop2 cofun => jWord 0x12#6 cofun
  | .cop3 cofun => jWord 0x13#6 cofun
  | .lb rt rs imm => iWord 0x20#6 rs rt imm
  | .lh rt rs imm => iWord 0x21#6 rs rt imm
  | .lwl rt rs imm => iWord 0x22#6 rs rt imm
  | .lw rt rs imm => iWord 0x23#6 rs rt imm
  | .lbu rt rs imm => iWord 0x24#6 rs rt imm
  | .lhu rt rs imm => iWord 0x25#6 rs rt imm
  | .lwr rt rs imm => iWord 0x26#6 rs rt imm
  | .sb rt rs imm => iWord 0x28#6 rs rt imm
  | .sh rt rs imm => iWord 0x29#6 rs rt imm
  | .swl rt rs imm => iWord 0x2A#6 rs rt imm
  | .sw rt rs imm => iWord 0x2B#6 rs rt imm
  | .swr rt rs imm => iWord 0x2E#6 rs rt imm
  | .lwc0 rt rs imm => iWord 0x30#6 rs rt imm
  | .lwc1 rt rs imm => iWord 0x31#6 rs rt imm
  | .lwc2 rt rs imm => iWord 0x32#6 rs rt imm
  | .lwc3 rt rs imm => iWord 0x33#6 rs rt imm
  | .swc0 rt rs imm => iWord 0x38#6 rs rt imm
  | .swc1 rt rs imm => iWord 0x39#6 rs rt imm
  | .swc2 rt rs imm => iWord 0x3A#6 rs rt imm
  | .swc3 rt rs imm => iWord 0x3B#6 rs rt imm

/-! ## The opcode table (30_encoding.md R138) -/

/-- One row of the opcode table: a word `w` fits it when `w & mask = match` (30_encoding.md R138). -/
structure OpcodeRow where
  mnemonic : String
  fixed : Word
  mask : Word
  deriving DecidableEq, Repr

/-- The word fits the row. -/
def OpcodeRow.fits (r : OpcodeRow) (w : Word) : Bool := w &&& r.mask == r.fixed

/-- The rows with `op = 0x00`. -/
def specialRows : List OpcodeRow := [
  ⟨"sll", 0x00000000, 0xFC00003F⟩,
  ⟨"srl", 0x00000002, 0xFC00003F⟩,
  ⟨"sra", 0x00000003, 0xFC00003F⟩,
  ⟨"sllv", 0x00000004, 0xFC00003F⟩,
  ⟨"srlv", 0x00000006, 0xFC00003F⟩,
  ⟨"srav", 0x00000007, 0xFC00003F⟩,
  ⟨"jr", 0x00000008, 0xFC00003F⟩,
  ⟨"jalr", 0x00000009, 0xFC00003F⟩,
  ⟨"syscall", 0x0000000C, 0xFC00003F⟩,
  ⟨"break", 0x0000000D, 0xFC00003F⟩,
  ⟨"mfhi", 0x00000010, 0xFC00003F⟩,
  ⟨"mthi", 0x00000011, 0xFC00003F⟩,
  ⟨"mflo", 0x00000012, 0xFC00003F⟩,
  ⟨"mtlo", 0x00000013, 0xFC00003F⟩,
  ⟨"mult", 0x00000018, 0xFC00003F⟩,
  ⟨"multu", 0x00000019, 0xFC00003F⟩,
  ⟨"div", 0x0000001A, 0xFC00003F⟩,
  ⟨"divu", 0x0000001B, 0xFC00003F⟩,
  ⟨"add", 0x00000020, 0xFC00003F⟩,
  ⟨"addu", 0x00000021, 0xFC00003F⟩,
  ⟨"sub", 0x00000022, 0xFC00003F⟩,
  ⟨"subu", 0x00000023, 0xFC00003F⟩,
  ⟨"and", 0x00000024, 0xFC00003F⟩,
  ⟨"or", 0x00000025, 0xFC00003F⟩,
  ⟨"xor", 0x00000026, 0xFC00003F⟩,
  ⟨"nor", 0x00000027, 0xFC00003F⟩,
  ⟨"slt", 0x0000002A, 0xFC00003F⟩,
  ⟨"sltu", 0x0000002B, 0xFC00003F⟩]

/-- The BCONDZ rows (the linking two first), the jumps and the conditional branches. -/
def branchRows : List OpcodeRow := [
  ⟨"bltzal", 0x04100000, 0xFC1F0000⟩,
  ⟨"bgezal", 0x04110000, 0xFC1F0000⟩,
  ⟨"bltz", 0x04000000, 0xFC010000⟩,
  ⟨"bgez", 0x04010000, 0xFC010000⟩,
  ⟨"j", 0x08000000, 0xFC000000⟩,
  ⟨"jal", 0x0C000000, 0xFC000000⟩,
  ⟨"beq", 0x10000000, 0xFC000000⟩,
  ⟨"bne", 0x14000000, 0xFC000000⟩,
  ⟨"blez", 0x18000000, 0xFC000000⟩,
  ⟨"bgtz", 0x1C000000, 0xFC000000⟩]

/-- The immediate ALU rows. -/
def immediateRows : List OpcodeRow := [
  ⟨"addi", 0x20000000, 0xFC000000⟩,
  ⟨"addiu", 0x24000000, 0xFC000000⟩,
  ⟨"slti", 0x28000000, 0xFC000000⟩,
  ⟨"sltiu", 0x2C000000, 0xFC000000⟩,
  ⟨"andi", 0x30000000, 0xFC000000⟩,
  ⟨"ori", 0x34000000, 0xFC000000⟩,
  ⟨"xori", 0x38000000, 0xFC000000⟩,
  ⟨"lui", 0x3C000000, 0xFC000000⟩]

/-- The coprocessor 0 to 3 rows. -/
def coprocessorRows : List OpcodeRow := [
  ⟨"mfc0", 0x40000000, 0xFFE00000⟩,
  ⟨"mtc0", 0x40800000, 0xFFE00000⟩,
  ⟨"rfe", 0x42000000, 0xFFE00000⟩,
  ⟨"cop1", 0x44000000, 0xFC000000⟩,
  ⟨"cop2", 0x48000000, 0xFC000000⟩,
  ⟨"cop3", 0x4C000000, 0xFC000000⟩]

/-- The load and store rows and the coprocessor load and store rows. -/
def memoryRows : List OpcodeRow := [
  ⟨"lb", 0x80000000, 0xFC000000⟩,
  ⟨"lh", 0x84000000, 0xFC000000⟩,
  ⟨"lwl", 0x88000000, 0xFC000000⟩,
  ⟨"lw", 0x8C000000, 0xFC000000⟩,
  ⟨"lbu", 0x90000000, 0xFC000000⟩,
  ⟨"lhu", 0x94000000, 0xFC000000⟩,
  ⟨"lwr", 0x98000000, 0xFC000000⟩,
  ⟨"sb", 0xA0000000, 0xFC000000⟩,
  ⟨"sh", 0xA4000000, 0xFC000000⟩,
  ⟨"swl", 0xA8000000, 0xFC000000⟩,
  ⟨"sw", 0xAC000000, 0xFC000000⟩,
  ⟨"swr", 0xB8000000, 0xFC000000⟩,
  ⟨"lwc0", 0xC0000000, 0xFC000000⟩,
  ⟨"lwc1", 0xC4000000, 0xFC000000⟩,
  ⟨"lwc2", 0xC8000000, 0xFC000000⟩,
  ⟨"lwc3", 0xCC000000, 0xFC000000⟩,
  ⟨"swc0", 0xE0000000, 0xFC000000⟩,
  ⟨"swc1", 0xE4000000, 0xFC000000⟩,
  ⟨"swc2", 0xE8000000, 0xFC000000⟩,
  ⟨"swc3", 0xEC000000, 0xFC000000⟩]

/-- The opcode table in its order; the first row that fits names the instruction (30_encoding.md R138). -/
def opcodeTable : List OpcodeRow :=
  specialRows ++ branchRows ++ immediateRows ++ coprocessorRows ++ memoryRows

/-- The mnemonic of the first row a word fits, if any (30_encoding.md R138). -/
def tableMnemonic (w : Word) : Option String := (opcodeTable.find? (·.fits w)).map (·.mnemonic)

/-! ## The host's view of the decoder -/

/-- The decoder's reading of an instruction given as a number, bit 0 the least significant bit of the word. The word
is laid out little-endian, its low byte at the lowest address (20_memory.md R90), and given to `decodeBytes`; the
bits above `nbits` are zero. -/
def decodeTableWord (nbits w : Nat) : Option Instr :=
  let v : Word := BitVec.ofNat 32 (w % 2 ^ nbits)
  match decodeBytes [field v 0 8, field v 8 8, field v 16 8, field v 24 8] with
  | .ok (i, _) => some i
  | .error _ => none

end Sys2Proof
end

