-- ==== Sys2Proof/Config.lean ====
section
/-!
DEFINITION. What is fixed for this machine (spec/00_scope.md R6) and is used where the state and its reset value are
laid down. The machine has no free value: no instruction leaves a result undefined (INVENTORY.md, "What the manual
leaves open"). The open parameters of R6 and P1 to P5 of spec/92_eei_decisions.md are arguments of `Machine.powerOn` and
of the host's moves, not constants.
-/

namespace Sys2Proof.Config

/-- `RESET_PC`, virtual (00_scope.md R6, 10_state.md R50). -/
abbrev resetPc : Word := 0xBFC00000#32

/-- `RAM_SIZE`, 2 MiB; RAM starts at physical 0 (00_scope.md R6, 20_memory.md R73). -/
abbrev ramSize : Nat := 0x200000

/-- `BIOS_SIZE`, 512 KiB (00_scope.md R6, 52_host.md R450). -/
abbrev biosSize : Nat := 0x80000

/-- The physical address of BIOS byte 0 (20_memory.md R73). -/
abbrev biosStart : Nat := 0x1FC00000

/-- `SCRATCH_LEN` (00_scope.md R6, decision D16). -/
abbrev scratchSize : Nat := 0x400

/-- The physical address of SCRATCH byte 0 (20_memory.md R73). -/
abbrev scratchStart : Nat := 0x1F800000

/-- `DMA_CONTROL_RESET` (00_scope.md R6, 10_state.md R52). -/
abbrev dmaControlReset : Word := 0x07654321#32

/-- `GPU_STATUS_RESET` (00_scope.md R6, 51_gpu.md R420). -/
abbrev gpuStatusReset : Word := 0x14802000#32

/-- What a byte of memory that nothing has written reads as. DESIGN CHOICE, unsafe (assumption log 4 and 5): the spec
leaves RAM at reset unspecified (10_state.md R51) and the BIOS image to the host (R450). -/
abbrev unlistedByte : Byte := 0x00#8

end Sys2Proof.Config
end

