-- ==== Sys2Proof/Machine/State.lean ====
section
/-!
DEFINITION. Every piece of state the spec gives the machine, as plain data, the ways a step can stop, and the state
right after reset (spec/10_state.md R20 to R40, R50 to R53; spec/50_dma.md R330 to R338; spec/51_gpu.md R380 to R386;
spec/52_host.md R452, R455, R457).
-/

namespace Sys2Proof.Machine

/-- The seven exceptions (60_exceptions.md R470). They are taken, never faults. -/
inductive ExcKind where
  | loadAddr
  | storeAddr
  | sysCall
  | breakpoint
  | illegalInstr
  | copE
  | overflow
  deriving DecidableEq, Repr

/-- A vertex of a draw message, `x` and `y` two's-complement (52_host.md R452). -/
structure Vertex where
  x : Word
  y : Word
  r : Word
  g : Word
  b : Word
  deriving DecidableEq, Repr

/-- A draw message (52_host.md R452, 51_gpu.md R393). -/
inductive Message where
  | triangle (v0 v1 v2 : Vertex)
  | quad (v0 v1 v2 v3 : Vertex)
  | offset (x y : Word)
  | draw
  deriving DecidableEq, Repr

/-- The general registers, as the input file `gpr` and as the write-back array `out_gpr` (10_state.md R20, R21). -/
abbrev RegFile := Vector Word 32

/-- The pending-load slot; `(0, 0)` is the empty slot (10_state.md R22). -/
structure Pending where
  reg : RegIdx
  value : Word
  deriving DecidableEq, Repr

/-- Memory by physical byte address: strictly rising addresses, no entry equal to `Config.unlistedByte`, which every
address not listed reads as (`Memory.wf`). -/
abbrev Memory := List Host.Cell

/-- The registers of one DMA channel (50_dma.md R331 to R334). -/
structure DmaChannel where
  base : BitVec 24
  blockControl : Word
  control : Word
  deriving DecidableEq, Repr

/-- The DMA controller: seven channels and the two global registers (50_dma.md R330, R337, R338). -/
structure Dma where
  channels : Vector DmaChannel 7
  control : Word
  interrupt : Word
  deriving DecidableEq, Repr

/-- The mode of the GP0 parser (51_gpu.md R385). -/
inductive Gp0Mode where
  | command
  | imageLoad
  deriving DecidableEq, Repr

/-- The GPU front end (51_gpu.md R380 to R385). -/
structure Gpu where
  /-- The status word (R380). -/
  status : Word
  /-- The texture window (R381). -/
  twMaskX : BitVec 5
  twMaskY : BitVec 5
  twOffsetX : BitVec 5
  twOffsetY : BitVec 5
  /-- The texture flip bits (R382). -/
  flipX : Bool
  flipY : Bool
  /-- The draw area and the signed draw offset (R383). -/
  areaLeft : BitVec 10
  areaTop : BitVec 10
  areaRight : BitVec 10
  areaBottom : BitVec 10
  offsetX : BitVec 11
  offsetY : BitVec 11
  /-- The display attributes (R384). -/
  vramX : BitVec 10
  vramY : BitVec 9
  hStart : BitVec 12
  hEnd : BitVec 12
  vStart : BitVec 10
  vEnd : BitVec 10
  /-- The GP0 parser: the words of `buf` below `buf_len`, the opcode, the words still to come, the mode (R385). -/
  buf : List Word
  opcode : BitVec 8
  argRemaining : Word
  mode : Gp0Mode
  deriving DecidableEq, Repr

/-- The whole machine (10_state.md R20 to R39). -/
structure State where
  /-- The input register file (R20). -/
  gpr : RegFile
  /-- The write-back array (R21). -/
  outGpr : RegFile
  /-- The pending-load slot (R22). -/
  pending : Pending
  /-- The program-counter registers (R23). -/
  pc : Word
  nextPc : Word
  currentPc : Word
  /-- The multiply and divide results (R24). -/
  hi : Word
  lo : Word
  /-- The delay-slot flags (R25). -/
  branchTaken : Bool
  inDelaySlot : Bool
  /-- Coprocessor 0 (R26 to R28). -/
  sr : Word
  cause : Word
  epc : Word
  /-- RAM, SCRATCH and BIOS by physical address (R36). -/
  mem : Memory
  /-- The DMA controller (R37). -/
  dma : Dma
  /-- The GPU front end (R38). -/
  gpu : Gpu
  /-- The draw messages emitted so far, the oldest first (R39, 52_host.md R452). -/
  messages : List Message
  /-- The shutdown flag (R39, 52_host.md R455). -/
  shutdown : Bool
  deriving DecidableEq, Repr

/-- The fatal stops (52_host.md R457, R458) and the step that never ends (50_dma.md R352). `emitted` is the messages
emitted up to the halt, the one part of a halted machine that leaves it (R458); the rest of the halted state is
observed by nothing and is not kept (assumption log 11). A step that never ends is no halt and keeps none (log 9). -/
inductive Fault where
  /-- Raised by the bus (an unmapped address, a SCRATCH access, a load from MEMC, RAM_SZ, CACHEC or EXP2, a store to
  BIOS or EXP1) and by a DMA offset with no register (20_memory.md R89). Safe: the spec stops the machine here. -/
  | outOfRange (emitted : List Message)
  /-- Raised by `cop2`, `lwc2`, `swc2`, by `mfc0` and `mtc0` of a register without a rule, by a DMA path without a port
  or with `sync = 3`, and by an empty image load (52_host.md R457). Safe: the spec stops the machine here. -/
  | unimplemented (emitted : List Message)
  /-- Raised by the bus for an 8- or 16-bit access to the DMA or GPU region (20_memory.md R87, R88). Safe: the spec
  stops the machine here. -/
  | badWidth (emitted : List Message)
  /-- Raised by GP0 and GP1 for an opcode outside their tables (51_gpu.md R390, R419). Safe: the spec stops the
  machine here. -/
  | unknownGpuOpcode (emitted : List Message)
  /-- Raised by `powerOn` for a BIOS image of another length than `BIOS_SIZE` (52_host.md R450). Safe: the spec aborts
  the start here. No step raises it. -/
  | invalidBios
  /-- Raised by the linked-list engine for a list whose step never ends (50_dma.md R352, assumption log 9). It carries no
  messages, DESIGN CHOICE (log 9): such a step has no result, and the messages it goes on producing, which leave the
  machine as they are produced (52_host.md R452, R456), may be without end. Safe: the machine takes no further step
  there either, and nothing can be proved of what that step has emitted. -/
  | endlessList
  deriving DecidableEq, Repr

/-- Why the model gives no meaning. -/
inductive Refusal where
  /-- An instruction without a meaning yet, by mnemonic; raised by an arm of `exec` only. Safe. -/
  | notModelled (mnemonic : String)
  deriving DecidableEq, Repr

/-- A result of an operation of the machine, or the stop that ended it. -/
abbrev Res (α : Type) := Host.Outcome α Fault Refusal

/-- The GPU front end after reset (10_state.md R53, 51_gpu.md R385). `opcode` is DESIGN CHOICE 0 (assumption log 6). -/
def Gpu.reset : Gpu where
  status := Config.gpuStatusReset
  twMaskX := 0
  twMaskY := 0
  twOffsetX := 0
  twOffsetY := 0
  flipX := false
  flipY := false
  areaLeft := 0
  areaTop := 0
  areaRight := 0
  areaBottom := 0
  offsetX := 0
  offsetY := 0
  vramX := 0
  vramY := 0
  hStart := 0x200
  hEnd := 0xC00
  vStart := 0x10
  vEnd := 0x100
  buf := []
  opcode := 0
  argRemaining := 0
  mode := .command

/-- The DMA controller after reset (10_state.md R52). -/
def Dma.reset : Dma where
  channels := Vector.replicate 7 ⟨0, 0, 0⟩
  control := Config.dmaControlReset
  interrupt := 0

/-- The machine right after reset (10_state.md R50 to R53), with the open parameters at the values the assumption log
names: `gpr[1..31]`, `hi`, `lo`, `current_pc` zero (DESIGN CHOICE, log 1 to 3), memory with nothing listed (log 4, 5).
`Machine.powerOn` is the reset state for any values of the open parameters. -/
def State.reset : State where
  gpr := Vector.replicate 32 0
  outGpr := Vector.replicate 32 0
  pending := ⟨0, 0⟩
  pc := Config.resetPc
  nextPc := Config.resetPc + 4
  currentPc := 0
  hi := 0
  lo := 0
  branchTaken := false
  inDelaySlot := false
  sr := 0
  cause := 0
  epc := 0
  mem := []
  dma := Dma.reset
  gpu := Gpu.reset
  messages := []
  shutdown := false

end Sys2Proof.Machine
end

