-- ==== Sys2Proof/Machine/Ops.lean ====
section
/-!
DEFINITION. The named operations over the registers and the byte memory, the sequencing of operations that may stop,
bit fields, taking an exception and the mode-stack pop beside it, and the parts of the step cycle around an
instruction (spec/10_state.md R20 to R34, spec/20_memory.md R78, R90, spec/60_exceptions.md R470, R474,
spec/45_coprocessor.md R294).
-/

namespace Sys2Proof.Machine

/-! ## Sequencing and the halts -/

/-- `f` on the result of `o`; a stop of `o` ends the whole ("no later part of the instruction's rule runs",
52_host.md R458). -/
def andThen {α β : Type} (o : Res α) (f : α → Res β) : Res β :=
  match o with
  | .next a => f a
  | .fault e => .fault e
  | .refused r => .refused r

/-- `halt(OutOfRange)` with what the host has seen by then (52_host.md R457). -/
def haltOutOfRange {α : Type} (s : State) : Res α := .fault (.outOfRange s.messages)

/-- `halt(Unimplemented)` (52_host.md R457). -/
def haltUnimplemented {α : Type} (s : State) : Res α := .fault (.unimplemented s.messages)

/-- `halt(BadWidth)` (52_host.md R457). -/
def haltBadWidth {α : Type} (s : State) : Res α := .fault (.badWidth s.messages)

/-- `halt(UnknownGpuOpcode)` (52_host.md R457). -/
def haltUnknownGpuOpcode {α : Type} (s : State) : Res α := .fault (.unknownGpuOpcode s.messages)

/-! ## Bit fields (00_scope.md R7) -/

/-- `w` with the field of `len` bits from bit `lo` up replaced by `v`, the effect of `w[lo+len-1:lo] <- v`. -/
def setField {len : Nat} (w : Word) (lo : Nat) (v : BitVec len) : Word :=
  (w &&& ~~~((BitVec.allOnes len).setWidth 32 <<< lo)) ||| (v.setWidth 32 <<< lo)

/-- `w[i] <- b`. -/
def setBit (w : Word) (i : Nat) (b : Bool) : Word := setField w i (BitVec.ofBool b)

/-! ## Registers (10_state.md R20 to R22) -/

/-- Entry `r` of a register array. -/
def RegFile.get (f : RegFile) (r : RegIdx) : Word := f[r.val]

/-- The register array with entry `r` replaced. -/
def RegFile.set (f : RegFile) (r : RegIdx) (v : Word) : RegFile := Vector.set f r.val v

/-- `x[r]`, a read of the input array (00_scope.md R9). -/
def State.x (s : State) (r : RegIdx) : Word := s.gpr.get r

/-- A read of the write-back array, the merge operand of `lwl` and `lwr` (40_loads_stores.md R169). -/
def State.out (s : State) (r : RegIdx) : Word := s.outGpr.get r

/-- `x[r] <- v`, a write to the write-back array (00_scope.md R9). Entry 0 is zeroed at the commit (10_state.md R32). -/
def State.writeReg (s : State) (r : RegIdx) (v : Word) : State := { s with outGpr := s.outGpr.set r v }

/-- `pending <- (r, v)` (10_state.md R22). -/
def State.setPending (s : State) (r : RegIdx) (v : Word) : State := { s with pending := ⟨r, v⟩ }

/-! ## Memory (20_memory.md R78, R90) -/

/-- The byte at a physical address. -/
def Memory.read : Memory → Nat → Byte
  | [], _ => Config.unlistedByte
  | (k, b) :: rest, a => if a = k then b else Memory.read rest a

/-- A listed byte, or nothing where the byte is what an unlisted address reads as. -/
def Memory.entry (a : Nat) (v : Byte) (rest : Memory) : Memory :=
  if v = Config.unlistedByte then rest else (a, v) :: rest

/-- Memory with the byte at a physical address written; the canonical form is kept. -/
def Memory.write : Memory → Nat → Byte → Memory
  | [], a, v => Memory.entry a v []
  | (k, b) :: rest, a, v =>
    if a < k then Memory.entry a v ((k, b) :: rest)
    else if a = k then Memory.entry a v rest
    else (k, b) :: Memory.write rest a v

/-- The canonical form: strictly rising addresses, and no entry equal to what an unlisted address reads as. -/
abbrev Memory.wf (m : Memory) : Prop :=
  m.Pairwise (fun c d => c.1 < d.1) ∧ ∀ c ∈ m, c.2 ≠ Config.unlistedByte

/-- The widths of a bus access (20_memory.md R76). -/
inductive Width where
  | byte
  | half
  | word
  deriving DecidableEq, Repr

/-- How many bytes an access moves. -/
def Width.bytes : Width → Nat
  | .byte => 1
  | .half => 2
  | .word => 4

/-- Byte `k` of a word, bits `8k+7:8k` (20_memory.md R78). -/
def byteOf (v : Word) (k : Nat) : Byte := v.extractLsb' (8 * k) 8

/-- A little-endian read of 1, 2 or 4 bytes, zero-extended to a word (20_memory.md R78, R90). -/
def Memory.load (m : Memory) (a : Nat) : Width → Word
  | .byte => (m.read a).setWidth 32
  | .half => (m.read (a + 1) ++ m.read a).setWidth 32
  | .word => wordOfBytes (m.read a) (m.read (a + 1)) (m.read (a + 2)) (m.read (a + 3))

/-- A little-endian write of the low 1, 2 or 4 bytes of a word (20_memory.md R78, R90). -/
def Memory.store (m : Memory) (a : Nat) (n : Width) (v : Word) : Memory :=
  match n with
  | .byte => m.write a (byteOf v 0)
  | .half => (m.write a (byteOf v 0)).write (a + 1) (byteOf v 1)
  | .word => (((m.write a (byteOf v 0)).write (a + 1) (byteOf v 1)).write (a + 2) (byteOf v 2)).write (a + 3) (byteOf v 3)

/-! ## Taking an exception, and the return from one (60_exceptions.md R474, R477) -/

/-- The exception codes (60_exceptions.md R470). -/
def ExcKind.code : ExcKind → Word
  | .loadAddr => 4
  | .storeAddr => 5
  | .sysCall => 8
  | .breakpoint => 9
  | .illegalInstr => 10
  | .copE => 11
  | .overflow => 12

/-- `VEC_BEV1` or `VEC_BEV0`, by `sr[22]` (60_exceptions.md R474). -/
def excVector (sr : Word) : Word := if sr.getLsbD 22 then 0xBFC00180#32 else 0x80000080#32

/-- The mode-stack push of exception entry: `sr[5:0]` shifts left by two, zeros enter (60_exceptions.md R474). -/
def pushMode (sr : Word) : Word := (sr &&& 0xFFFFFFC0#32) ||| (((sr &&& 0x3F#32) <<< 2) &&& 0x3F#32)

/-- The mode-stack pop of `rfe`: `sr[5:0]` shifts right by two and keeps bits 5..4 (45_coprocessor.md R294). -/
def popMode (sr : Word) : Word :=
  (sr &&& 0xFFFFFFC0#32) ||| ((sr &&& 0x3F#32) >>> 2) ||| ((sr &&& 0x3F#32) &&& 0x30#32)

/-- `raise E` (60_exceptions.md R474). -/
def raise (e : ExcKind) (s : State) : State :=
  { s with
    sr := pushMode s.sr
    cause := if s.inDelaySlot then (e.code <<< 2) ||| 0x80000000#32 else e.code <<< 2
    epc := if s.inDelaySlot then s.currentPc - 4 else s.currentPc
    pc := excVector s.sr
    nextPc := excVector s.sr + 4 }

/-- The one effect of the return instruction `rfe`; it changes no program counter (45_coprocessor.md R294). -/
def restoreMode (s : State) : State := { s with sr := popMode s.sr }

/-! ## The step cycle around an instruction (10_state.md R30) -/

/-- Step 1: `current_pc <- pc`. -/
def capturePc (s : State) : State := { s with currentPc := s.pc }

/-- Steps 3 to 5: the program counters advance, the pending load lands in the write-back array and the slot empties,
and the delay-slot flags shuffle forward. -/
def advance (s : State) : State :=
  { s with
    pc := s.nextPc
    nextPc := s.nextPc + 4
    outGpr := s.outGpr.set s.pending.reg s.pending.value
    pending := ⟨0, 0⟩
    inDelaySlot := s.branchTaken
    branchTaken := false }

/-- The end of step 6 and step 7: `out_gpr[0] <- 0`, then `gpr <- out_gpr` (10_state.md R30, R32). -/
def commit (s : State) : State := { s with outGpr := s.outGpr.set 0 0, gpr := s.outGpr.set 0 0 }

end Sys2Proof.Machine
end

