-- ==== Sys2Proof/Machine/Flags.lean ====
section
/-!
DEFINITION. The machine has no flags (spec/10_state.md R40). What stands here is the signed overflow test of `add`,
`addi` and `sub`, on the exact result (spec/41_alu_register.md R207), the comparison results of the set-on-less-than
instructions (R199, R200) and the branch conditions (spec/44_branches_jumps.md R263 to R267).
-/

namespace Sys2Proof.Machine

/-- An exact result lies outside the signed 32-bit range (41_alu_register.md R207). -/
def outOfSigned (r : Int) : Bool := r > 0x7FFFFFFF || r < -0x80000000

/-- `signed(a) + signed(b)` overflows (41_alu_register.md R207). -/
def addOverflows (a b : Word) : Bool := outOfSigned (a.toInt + b.toInt)

/-- `signed(a) - signed(b)` overflows (41_alu_register.md R207). -/
def subOverflows (a b : Word) : Bool := outOfSigned (a.toInt - b.toInt)

/-- 1 or 0 in a register. -/
def boolWord (b : Bool) : Word := if b then 1 else 0

/-- `signed(a) < signed(b)` (41_alu_register.md R199). -/
def lessSigned (a b : Word) : Bool := a.toInt < b.toInt

/-- `a < b` as unsigned integers (41_alu_register.md R200). -/
def lessUnsigned (a b : Word) : Bool := a.toNat < b.toNat

/-- `signed(a) < 0` (44_branches_jumps.md R263). -/
def isNegative (a : Word) : Bool := a.toInt < 0

/-- `signed(a) <= 0` (44_branches_jumps.md R266). -/
def isNonPositive (a : Word) : Bool := a.toInt ≤ 0

end Sys2Proof.Machine
end

