-- ==== Sys2Proof/Machine/Operands.lean ====
section
/-!
DEFINITION. How each operand of an instruction is assembled (spec/30_encoding.md R134), the effective address and the
isolate-cache gate of loads and stores (spec/40_loads_stores.md R160, R162), and the merge patterns of the unaligned
word instructions (R169, R170, R174, R175).
-/

namespace Sys2Proof.Machine

/-- The signed immediate, `sext_16(imm16)` (30_encoding.md R134). -/
def signedImm (imm : BitVec 16) : Word := imm.signExtend 32

/-- The unsigned immediate, `zext_16(imm16)` (30_encoding.md R134). -/
def unsignedImm (imm : BitVec 16) : Word := imm.setWidth 32

/-- The upper immediate, `imm16 << 16` (30_encoding.md R134). -/
def upperImm (imm : BitVec 16) : Word := imm.setWidth 32 <<< 16

/-- The branch target: `sext_16(imm16) << 2` added to `pc`, which is the delay slot's address
(30_encoding.md R134, 44_branches_jumps.md R261). -/
def branchTarget (s : State) (imm : BitVec 16) : Word := s.pc + (signedImm imm <<< 2)

/-- The jump target, `(pc & 0xF0000000) | (target26 << 2)` (30_encoding.md R134). -/
def jumpTarget (s : State) (target : BitVec 26) : Word :=
  (s.pc &&& 0xF0000000#32) ||| (target.setWidth 32 <<< 2)

/-- The variable shift amount, `x[rs][4:0]` (30_encoding.md R134). -/
def shiftAmount (s : State) (rs : RegIdx) : BitVec 5 := field (s.x rs) 0 5

/-- The effective address, `x[rs] + sext_16(imm16)` (40_loads_stores.md R160). -/
def effAddr (s : State) (rs : RegIdx) (imm : BitVec 16) : Word := s.x rs + signedImm imm

/-- `sr[16]`: CPU loads and stores are dropped (40_loads_stores.md R162). -/
def isolated (s : State) : Bool := s.sr.getLsbD 16

/-- The address is a multiple of the access width (20_memory.md R91). -/
def aligned (a : Word) : Width → Bool
  | .byte => true
  | .half => !a.getLsbD 0
  | .word => !a.getLsbD 0 && !a.getLsbD 1

/-- The aligned word an unaligned-word instruction accesses, `addr & 0xFFFFFFFC` (20_memory.md R91). -/
def alignWord (a : Word) : Word := a &&& 0xFFFFFFFC#32

/-- The merge of `lwl` (40_loads_stores.md R169). -/
def mergeLwl (a cur w : Word) : Word :=
  match field a 0 2 with
  | 0#2 => (cur &&& 0x00FFFFFF#32) ||| (w <<< 24)
  | 1#2 => (cur &&& 0x0000FFFF#32) ||| (w <<< 16)
  | 2#2 => (cur &&& 0x000000FF#32) ||| (w <<< 8)
  | 3#2 => w

/-- The merge of `lwr` (40_loads_stores.md R170). -/
def mergeLwr (a cur w : Word) : Word :=
  match field a 0 2 with
  | 0#2 => w
  | 1#2 => (cur &&& 0xFF000000#32) ||| (w >>> 8)
  | 2#2 => (cur &&& 0xFFFF0000#32) ||| (w >>> 16)
  | 3#2 => (cur &&& 0xFFFFFF00#32) ||| (w >>> 24)

/-- The merge of `swl` (40_loads_stores.md R174). -/
def mergeSwl (a m v : Word) : Word :=
  match field a 0 2 with
  | 0#2 => (m &&& 0xFFFFFF00#32) ||| (v >>> 24)
  | 1#2 => (m &&& 0xFFFF0000#32) ||| (v >>> 16)
  | 2#2 => (m &&& 0xFF000000#32) ||| (v >>> 8)
  | 3#2 => v

/-- The merge of `swr` (40_loads_stores.md R175). -/
def mergeSwr (a m v : Word) : Word :=
  match field a 0 2 with
  | 0#2 => v
  | 1#2 => (m &&& 0x000000FF#32) ||| (v <<< 8)
  | 2#2 => (m &&& 0x0000FFFF#32) ||| (v <<< 16)
  | 3#2 => (m &&& 0x00FFFFFF#32) ||| (v <<< 24)

end Sys2Proof.Machine
end

