-- ==== Sys2Proof/Machine/AluReg.lean ====
section
/-!
DEFINITION. Register-register arithmetic, logic, comparisons and shifts (spec/41_alu_register.md R190 to R207). Sources are read
from `gpr`, the one result goes to the write-back array (R190).
-/

namespace Sys2Proof.Machine

/-- A result that is written unless the operation overflows, which raises `Overflow` and writes nothing
(41_alu_register.md R207). -/
def writeOrOverflow (overflows : Bool) (rd : RegIdx) (v : Word) (s : State) : State :=
  if overflows then raise .overflow s else s.writeReg rd v

/-- `add rd, rs, rt` (41_alu_register.md R191). -/
def execAdd (rd rs rt : RegIdx) (s : State) : Res State :=
  .next (writeOrOverflow (addOverflows (s.x rs) (s.x rt)) rd (s.x rs + s.x rt) s)

/-- `addu rd, rs, rt` (41_alu_register.md R192). -/
def execAddu (rd rs rt : RegIdx) (s : State) : Res State :=
  .next (s.writeReg rd (s.x rs + s.x rt))

/-- `sub rd, rs, rt` (41_alu_register.md R193). -/
def execSub (rd rs rt : RegIdx) (s : State) : Res State :=
  .next (writeOrOverflow (subOverflows (s.x rs) (s.x rt)) rd (s.x rs - s.x rt) s)

/-- `subu rd, rs, rt` (41_alu_register.md R194). -/
def execSubu (rd rs rt : RegIdx) (s : State) : Res State :=
  .next (s.writeReg rd (s.x rs - s.x rt))

/-- `and rd, rs, rt` (41_alu_register.md R195). -/
def execAnd (rd rs rt : RegIdx) (s : State) : Res State :=
  .next (s.writeReg rd (s.x rs &&& s.x rt))

/-- `or rd, rs, rt` (41_alu_register.md R196). -/
def execOr (rd rs rt : RegIdx) (s : State) : Res State :=
  .next (s.writeReg rd (s.x rs ||| s.x rt))

/-- `xor rd, rs, rt` (41_alu_register.md R197). -/
def execXor (rd rs rt : RegIdx) (s : State) : Res State :=
  .next (s.writeReg rd (s.x rs ^^^ s.x rt))

/-- `nor rd, rs, rt` (41_alu_register.md R198). -/
def execNor (rd rs rt : RegIdx) (s : State) : Res State :=
  .next (s.writeReg rd (~~~(s.x rs ||| s.x rt)))

/-- `slt rd, rs, rt` (41_alu_register.md R199). -/
def execSlt (rd rs rt : RegIdx) (s : State) : Res State :=
  .next (s.writeReg rd (boolWord (lessSigned (s.x rs) (s.x rt))))

/-- `sltu rd, rs, rt` (41_alu_register.md R200). -/
def execSltu (rd rs rt : RegIdx) (s : State) : Res State :=
  .next (s.writeReg rd (boolWord (lessUnsigned (s.x rs) (s.x rt))))

/-- `sll rd, rt, shamt` (41_alu_register.md R201). -/
def execSll (rd rt : RegIdx) (shamt : BitVec 5) (s : State) : Res State :=
  .next (s.writeReg rd (s.x rt <<< shamt.toNat))

/-- `srl rd, rt, shamt` (41_alu_register.md R202). -/
def execSrl (rd rt : RegIdx) (shamt : BitVec 5) (s : State) : Res State :=
  .next (s.writeReg rd (s.x rt >>> shamt.toNat))

/-- `sra rd, rt, shamt` (41_alu_register.md R203). -/
def execSra (rd rt : RegIdx) (shamt : BitVec 5) (s : State) : Res State :=
  .next (s.writeReg rd ((s.x rt).sshiftRight shamt.toNat))

/-- `sllv rd, rt, rs` (41_alu_register.md R204). -/
def execSllv (rd rt rs : RegIdx) (s : State) : Res State :=
  .next (s.writeReg rd (s.x rt <<< (shiftAmount s rs).toNat))

/-- `srlv rd, rt, rs` (41_alu_register.md R205). -/
def execSrlv (rd rt rs : RegIdx) (s : State) : Res State :=
  .next (s.writeReg rd (s.x rt >>> (shiftAmount s rs).toNat))

/-- `srav rd, rt, rs` (41_alu_register.md R206). -/
def execSrav (rd rt rs : RegIdx) (s : State) : Res State :=
  .next (s.writeReg rd ((s.x rt).sshiftRight (shiftAmount s rs).toNat))

end Sys2Proof.Machine
end

