-- ==== Sys2Proof/Machine/AluImm.lean ====
section
/-!
DEFINITION. Arithmetic and logic with an immediate (spec/42_alu_immediate.md R220 to R228); the immediates are those of
spec/30_encoding.md R134.
-/

namespace Sys2Proof.Machine

/-- `addi rt, rs, imm` (42_alu_immediate.md R221). -/
def execAddi (rt rs : RegIdx) (imm : BitVec 16) (s : State) : Res State :=
  .next (writeOrOverflow (addOverflows (s.x rs) (signedImm imm)) rt (s.x rs + signedImm imm) s)

/-- `addiu rt, rs, imm` (42_alu_immediate.md R222). -/
def execAddiu (rt rs : RegIdx) (imm : BitVec 16) (s : State) : Res State :=
  .next (s.writeReg rt (s.x rs + signedImm imm))

/-- `slti rt, rs, imm` (42_alu_immediate.md R223). -/
def execSlti (rt rs : RegIdx) (imm : BitVec 16) (s : State) : Res State :=
  .next (s.writeReg rt (boolWord (lessSigned (s.x rs) (signedImm imm))))

/-- `sltiu rt, rs, imm` (42_alu_immediate.md R224). -/
def execSltiu (rt rs : RegIdx) (imm : BitVec 16) (s : State) : Res State :=
  .next (s.writeReg rt (boolWord (lessUnsigned (s.x rs) (signedImm imm))))

/-- `andi rt, rs, imm` (42_alu_immediate.md R225). -/
def execAndi (rt rs : RegIdx) (imm : BitVec 16) (s : State) : Res State :=
  .next (s.writeReg rt (s.x rs &&& unsignedImm imm))

/-- `ori rt, rs, imm` (42_alu_immediate.md R226). -/
def execOri (rt rs : RegIdx) (imm : BitVec 16) (s : State) : Res State :=
  .next (s.writeReg rt (s.x rs ||| unsignedImm imm))

/-- `xori rt, rs, imm` (42_alu_immediate.md R227). -/
def execXori (rt rs : RegIdx) (imm : BitVec 16) (s : State) : Res State :=
  .next (s.writeReg rt (s.x rs ^^^ unsignedImm imm))

/-- `lui rt, imm` (42_alu_immediate.md R228). -/
def execLui (rt : RegIdx) (imm : BitVec 16) (s : State) : Res State := .next (s.writeReg rt (upperImm imm))

end Sys2Proof.Machine
end

