-- ==== Sys2Proof/Machine/Branch.lean ====
section
/-!
DEFINITION. Branches and jumps (spec/44_branches_jumps.md R260 to R277). While one executes, `pc` is its delay slot's address and
`nextPc` the address after it; only `nextPc`, `branchTaken` and a link register change (R260).
-/

namespace Sys2Proof.Machine

/-- The next fetch after the delay slot is from `target` (44_branches_jumps.md R261, R272). -/
def State.branchTo (s : State) (target : Word) : State := { s with nextPc := target, branchTaken := true }

/-- A conditional branch; an untaken one changes nothing (44_branches_jumps.md R261, R262). -/
def branchIf (cond : Bool) (imm : BitVec 16) (s : State) : State :=
  if cond then s.branchTo (branchTarget s imm) else s

/-- `x[r] <- next_pc`, the link (44_branches_jumps.md R263, R273). -/
def State.link (s : State) (r : RegIdx) : State := s.writeReg r s.nextPc

/-- `beq rs, rt, label` (44_branches_jumps.md R264). -/
def execBeq (rs rt : RegIdx) (imm : BitVec 16) (s : State) : Res State := .next (branchIf (s.x rs == s.x rt) imm s)

/-- `bne rs, rt, label` (44_branches_jumps.md R265). -/
def execBne (rs rt : RegIdx) (imm : BitVec 16) (s : State) : Res State := .next (branchIf (s.x rs != s.x rt) imm s)

/-- `blez rs, label` (44_branches_jumps.md R266). -/
def execBlez (rs : RegIdx) (imm : BitVec 16) (s : State) : Res State :=
  .next (branchIf (isNonPositive (s.x rs)) imm s)

/-- `bgtz rs, label` (44_branches_jumps.md R267). -/
def execBgtz (rs : RegIdx) (imm : BitVec 16) (s : State) : Res State :=
  .next (branchIf (!isNonPositive (s.x rs)) imm s)

/-- `bltz rs, label` (44_branches_jumps.md R268). -/
def execBltz (rs : RegIdx) (imm : BitVec 16) (s : State) : Res State :=
  .next (branchIf (isNegative (s.x rs)) imm s)

/-- `bgez rs, label` (44_branches_jumps.md R269). -/
def execBgez (rs : RegIdx) (imm : BitVec 16) (s : State) : Res State :=
  .next (branchIf (!isNegative (s.x rs)) imm s)

/-- `bltzal rs, label`: the link is written whether or not the branch is taken (44_branches_jumps.md R263, R270). -/
def execBltzal (rs : RegIdx) (imm : BitVec 16) (s : State) : Res State :=
  .next (branchIf (isNegative (s.x rs)) imm (s.link 31))

/-- `bgezal rs, label`: the link is written whether or not the branch is taken (44_branches_jumps.md R263, R271). -/
def execBgezal (rs : RegIdx) (imm : BitVec 16) (s : State) : Res State :=
  .next (branchIf (!isNegative (s.x rs)) imm (s.link 31))

/-- `j target` (44_branches_jumps.md R272). -/
def execJ (target : BitVec 26) (s : State) : Res State := .next (s.branchTo (jumpTarget s target))

/-- `jal target` (44_branches_jumps.md R273). -/
def execJal (target : BitVec 26) (s : State) : Res State := .next ((s.link 31).branchTo (jumpTarget s target))

/-- `jr rs`; no alignment test (44_branches_jumps.md R274, R277). -/
def execJr (rs : RegIdx) (s : State) : Res State := .next (s.branchTo (s.x rs))

/-- `jalr rd, rs`; the target is read before the link is written (44_branches_jumps.md R275). -/
def execJalr (rd rs : RegIdx) (s : State) : Res State := .next ((s.link rd).branchTo (s.x rs))

end Sys2Proof.Machine
end

