-- ==== Sys2Proof/Machine/Coprocessor.lean ====
section
/-!
DEFINITION. Coprocessor instructions (spec/45_coprocessor.md R290 to R306). There is no privilege check and no
coprocessor-usable check (spec/60_exceptions.md R482).
-/

namespace Sys2Proof.Machine

/-- The coprocessor-0 registers that can be read (45_coprocessor.md R290, R291). -/
def cop0Read (s : State) (n : RegIdx) : Option Word :=
  match n with
  | 12 => some s.sr
  | 13 => some s.cause
  | 14 => some s.epc
  | _ => none

/-- A write of a coprocessor-0 register; 3, 5, 6, 7, 9, 11 and 13 discard the value (45_coprocessor.md R292, R293). -/
def cop0Write (s : State) (n : RegIdx) (v : Word) : Option State :=
  match n with
  | 12 => some { s with sr := v }
  | 3 => some s
  | 5 => some s
  | 6 => some s
  | 7 => some s
  | 9 => some s
  | 11 => some s
  | 13 => some s
  | _ => none

/-- `mfc0 rt, $rd`: the value goes to the pending-load slot; a register without a read path halts
(45_coprocessor.md R290, R291). -/
def execMfc0 (rt rd : RegIdx) (s : State) : Res State :=
  match cop0Read s rd with
  | some v => .next (s.setPending rt v)
  | none => haltUnimplemented s

/-- `mtc0 rt, $rd`; a register that is neither written nor ignored halts (45_coprocessor.md R292, R293). -/
def execMtc0 (rt rd : RegIdx) (s : State) : Res State :=
  match cop0Write s rd (s.x rt) with
  | some s' => .next s'
  | none => haltUnimplemented s

/-- `rfe` (45_coprocessor.md R294). -/
def execRfe (s : State) : Res State := .next (restoreMode s)

/-- `cop1`: there is no floating-point unit (45_coprocessor.md R296). -/
def execCop1 (_cofun : BitVec 26) (s : State) : Res State := .next (raise .copE s)

/-- `cop2`: the geometry engine is not part of this machine (45_coprocessor.md R297). -/
def execCop2 (_cofun : BitVec 26) (s : State) : Res State := haltUnimplemented s

/-- `cop3` (45_coprocessor.md R298). -/
def execCop3 (_cofun : BitVec 26) (s : State) : Res State := .next (raise .copE s)

/-- `lwc0 rt, imm(rs)` (45_coprocessor.md R299). -/
def execLwc0 (_rt _rs : RegIdx) (_imm : BitVec 16) (s : State) : Res State := .next (raise .copE s)

/-- `lwc1 rt, imm(rs)` (45_coprocessor.md R300). -/
def execLwc1 (_rt _rs : RegIdx) (_imm : BitVec 16) (s : State) : Res State := .next (raise .copE s)

/-- `lwc2 rt, imm(rs)` (45_coprocessor.md R301). -/
def execLwc2 (_rt _rs : RegIdx) (_imm : BitVec 16) (s : State) : Res State := haltUnimplemented s

/-- `lwc3 rt, imm(rs)` (45_coprocessor.md R302). -/
def execLwc3 (_rt _rs : RegIdx) (_imm : BitVec 16) (s : State) : Res State := .next (raise .copE s)

/-- `swc0 rt, imm(rs)` (45_coprocessor.md R303). -/
def execSwc0 (_rt _rs : RegIdx) (_imm : BitVec 16) (s : State) : Res State := .next (raise .copE s)

/-- `swc1 rt, imm(rs)` (45_coprocessor.md R304). -/
def execSwc1 (_rt _rs : RegIdx) (_imm : BitVec 16) (s : State) : Res State := .next (raise .copE s)

/-- `swc2 rt, imm(rs)` (45_coprocessor.md R305). -/
def execSwc2 (_rt _rs : RegIdx) (_imm : BitVec 16) (s : State) : Res State := haltUnimplemented s

/-- `swc3 rt, imm(rs)` (45_coprocessor.md R306). -/
def execSwc3 (_rt _rs : RegIdx) (_imm : BitVec 16) (s : State) : Res State := .next (raise .copE s)

end Sys2Proof.Machine
end

