-- ==== Sys2Proof/Machine/Gpu.lean ====
section
/-!
DEFINITION. The GPU front end: the GP0 command stream with its opcode table and actions, and the GP1 control port
(spec/51_gpu.md R385 to R428).
-/

namespace Sys2Proof.Machine

/-- The state with the GPU front end replaced. -/
def State.setGpu (s : State) (g : Gpu) : State := { s with gpu := g }

/-- `Emit(m)`: a message is appended to the output (51_gpu.md R393, 52_host.md R452). -/
def State.emit (s : State) (m : Message) : State := { s with messages := s.messages ++ [m] }

/-! ## Vertices (51_gpu.md R391, R392) -/

/-- `Vertex(p, c)`: an 11-bit signed position and an 8-bit-a-lane colour (51_gpu.md R391, R392). -/
def vertex (p c : Word) : Vertex where
  x := (field p 0 11).signExtend 32
  y := (field p 16 11).signExtend 32
  r := (field c 0 8).setWidth 32
  g := (field c 8 8).setWidth 32
  b := (field c 16 8).setWidth 32

/-- The vertex of a textured quad, whose colour is forced to `r = 0x80, g = 0, b = 0` (51_gpu.md R397). -/
def texturedVertex (p : Word) : Vertex := { vertex p 0 with r := 0x80, g := 0, b := 0 }

/-! ## The GP0 opcode table (51_gpu.md R389) -/

/-- The commands of the GP0 table (51_gpu.md R389). -/
inductive Gp0Cmd where
  | nop
  | clearCache
  | monoQuad
  | texturedQuad
  | shadedTriangle
  | shadedQuad
  | imageLoad
  | imageStore
  | drawMode
  | textureWindow
  | areaTopLeft
  | areaBottomRight
  | drawOffset
  | maskBits
  deriving DecidableEq, Repr

/-- The row of an opcode byte, if it has one (51_gpu.md R389, R390). -/
def gp0Lookup (op : BitVec 8) : Option Gp0Cmd :=
  match op with
  | 0x00#8 => some .nop
  | 0x01#8 => some .clearCache
  | 0x28#8 => some .monoQuad
  | 0x2C#8 => some .texturedQuad
  | 0x30#8 => some .shadedTriangle
  | 0x38#8 => some .shadedQuad
  | 0xA0#8 => some .imageLoad
  | 0xC0#8 => some .imageStore
  | 0xE1#8 => some .drawMode
  | 0xE2#8 => some .textureWindow
  | 0xE3#8 => some .areaTopLeft
  | 0xE4#8 => some .areaBottomRight
  | 0xE5#8 => some .drawOffset
  | 0xE6#8 => some .maskBits
  | _ => none

/-- `argc`, which counts the header (51_gpu.md R389). -/
def Gp0Cmd.argc : Gp0Cmd → Word
  | .nop => 1
  | .clearCache => 1
  | .monoQuad => 5
  | .texturedQuad => 9
  | .shadedTriangle => 6
  | .shadedQuad => 8
  | .imageLoad => 3
  | .imageStore => 3
  | .drawMode => 1
  | .textureWindow => 1
  | .areaTopLeft => 1
  | .areaBottomRight => 1
  | .drawOffset => 1
  | .maskBits => 1

/-! ## The GP0 actions (51_gpu.md R394 to R408) -/

/-- Word `i` of the command buffer. The buffer holds `argc` words when an action runs (51_gpu.md R388), so the
default is never read in a state a run reaches (assumption log 12). -/
def bufWord (g : Gpu) (i : Nat) : Word := g.buf.getD i 0

/-- `ceil(w*h / 2)` of an image load's size word, exact (51_gpu.md R400). -/
def imageWords (size : Word) : Nat := ((field size 0 16).toNat * (field size 16 16).toNat + 1) / 2

/-- The image-load action: the parser enters `ImageLoad` for the number of words the size gives; an empty image halts
(51_gpu.md R400). -/
def gp0ImageLoad (s : State) : Res State :=
  let n := imageWords (bufWord s.gpu 2)
  if n = 0 then haltUnimplemented s
  else .next (s.setGpu { s.gpu with argRemaining := BitVec.ofNat 32 n, mode := .imageLoad })

/-- Draw mode: texture-page bits into the status word and the flip bits (51_gpu.md R403). -/
def gp0DrawMode (v : Word) (g : Gpu) : Gpu :=
  { g with
    status := setBit (setField g.status 0 (field v 0 11)) 15 (v.getLsbD 11)
    flipX := v.getLsbD 12
    flipY := v.getLsbD 13 }

/-- Texture window (51_gpu.md R404). -/
def gp0TextureWindow (v : Word) (g : Gpu) : Gpu :=
  { g with twMaskX := field v 0 5, twMaskY := field v 5 5, twOffsetX := field v 10 5, twOffsetY := field v 15 5 }

/-- Draw-area top left (51_gpu.md R405). -/
def gp0AreaTopLeft (v : Word) (g : Gpu) : Gpu := { g with areaLeft := field v 0 10, areaTop := field v 10 10 }

/-- Draw-area bottom right (51_gpu.md R406). -/
def gp0AreaBottomRight (v : Word) (g : Gpu) : Gpu :=
  { g with areaRight := field v 0 10, areaBottom := field v 10 10 }

/-- Drawing offset: two signed 11-bit values, then the `offset` message and the `draw` barrier (51_gpu.md R407). -/
def gp0DrawOffset (v : Word) (s : State) : State :=
  let x := field v 0 11
  let y := field v 11 11
  ((s.setGpu { s.gpu with offsetX := x, offsetY := y }).emit (.offset (x.signExtend 32) (y.signExtend 32))).emit .draw

/-- Mask-bit setting (51_gpu.md R408). -/
def gp0MaskBits (v : Word) (g : Gpu) : Gpu :=
  { g with status := setBit (setBit g.status 11 (v.getLsbD 0)) 12 (v.getLsbD 1) }

/-- The action of a command on its assembled buffer (51_gpu.md R394 to R408). -/
def Gp0Cmd.run (c : Gp0Cmd) (s : State) : Res State :=
  let w := bufWord s.gpu
  match c with
  | .nop => .next s
  | .clearCache => .next s
  | .monoQuad => .next (s.emit (.quad (vertex (w 1) (w 0)) (vertex (w 2) (w 0)) (vertex (w 3) (w 0)) (vertex (w 4) (w 0))))
  | .texturedQuad => .next (s.emit (.quad (texturedVertex (w 1)) (texturedVertex (w 3)) (texturedVertex (w 5)) (texturedVertex (w 7))))
  | .shadedTriangle => .next (s.emit (.triangle (vertex (w 1) (w 0)) (vertex (w 3) (w 2)) (vertex (w 5) (w 4))))
  | .shadedQuad => .next (s.emit (.quad (vertex (w 1) (w 0)) (vertex (w 3) (w 2)) (vertex (w 5) (w 4)) (vertex (w 7) (w 6))))
  | .imageLoad => gp0ImageLoad s
  | .imageStore => .next s
  | .drawMode => .next (s.setGpu (gp0DrawMode (w 0) s.gpu))
  | .textureWindow => .next (s.setGpu (gp0TextureWindow (w 0) s.gpu))
  | .areaTopLeft => .next (s.setGpu (gp0AreaTopLeft (w 0) s.gpu))
  | .areaBottomRight => .next (s.setGpu (gp0AreaBottomRight (w 0) s.gpu))
  | .drawOffset => .next (gp0DrawOffset (w 0) s)
  | .maskBits => .next (s.setGpu (gp0MaskBits (w 0) s.gpu))

/-! ## The GP0 parser (51_gpu.md R388) -/

/-- A word that belongs to an image load: it is swallowed (51_gpu.md R388, R401). -/
def gp0Swallow (g : Gpu) : Gpu :=
  let left := g.argRemaining - 1
  { g with argRemaining := left, mode := if left = 0 then .command else .imageLoad }

/-- A word taken into the command buffer; the last one runs the command's action (51_gpu.md R388). An opcode without
a row is never being assembled in a state a run reaches; then no action runs (assumption log 12). -/
def gp0Push (w : Word) (s : State) : Res State :=
  let s' := s.setGpu { s.gpu with buf := s.gpu.buf ++ [w], argRemaining := s.gpu.argRemaining - 1 }
  if s'.gpu.argRemaining = 0 then
    match gp0Lookup s'.gpu.opcode with
    | some c => c.run s'
    | none => .next s'
  else .next s'

/-- `Gp0Exec(w)`: one word arrives at GP0 (51_gpu.md R388). -/
def gp0Exec (w : Word) (s : State) : Res State :=
  match s.gpu.mode with
  | .imageLoad => .next (s.setGpu (gp0Swallow s.gpu))
  | .command =>
    if s.gpu.argRemaining = 0 then
      match gp0Lookup (field w 24 8) with
      | none => haltUnknownGpuOpcode s
      | some c => gp0Push w (s.setGpu { s.gpu with opcode := field w 24 8, buf := [], argRemaining := c.argc })
    else gp0Push w s

/-! ## GP1 (51_gpu.md R419 to R428) -/

/-- Reset command buffer (51_gpu.md R421). -/
def gp1ResetBuffer (g : Gpu) : Gpu := { g with buf := [], argRemaining := 0, mode := .command }

/-- Reset GPU (51_gpu.md R420). The opcode byte is not among the state the command resets. -/
def gp1Reset (g : Gpu) : Gpu :=
  gp1ResetBuffer
    { g with
      status := 0x14802000
      twMaskX := 0
      twMaskY := 0
      twOffsetX := 0
      twOffsetY := 0
      flipX := false
      flipY := false
      areaLeft := 0
      areaTop := 0
      areaRight := 0
      areaBottom := 0
      offsetX := 0
      offsetY := 0
      hStart := 0x200
      hEnd := 0xC00
      vStart := 0x10
      vEnd := 0x100
      vramX := 0
      vramY := 0 }

/-- `dma_request` from the direction and the ready flags (51_gpu.md R424). -/
def dmaRequest (status : Word) (dir : BitVec 2) : Bool :=
  match dir with
  | 0#2 => false
  | 1#2 => true
  | 2#2 => status.getLsbD 28
  | 3#2 => status.getLsbD 27

/-- DMA direction (51_gpu.md R424). -/
def gp1DmaDirection (w : Word) (g : Gpu) : Gpu :=
  let dir := field w 0 2
  { g with status := setBit (setField g.status 29 dir) 25 (dmaRequest g.status dir) }

/-- Display mode; the vertical resolution is always stored as R240 (51_gpu.md R428). -/
def gp1DisplayMode (w : Word) (status : Word) : Word :=
  let s1 := setField status 17 (field w 0 2)
  let s2 := setBit s1 19 false
  let s3 := setField s2 20 (field w 3 3)
  let s4 := setBit s3 16 (w.getLsbD 6)
  setBit s4 14 (w.getLsbD 7)

/-- The effect of a GP1 word on the front end; `none` for an opcode above 0x08 (51_gpu.md R419 to R428). -/
def gp1Effect (w : Word) (g : Gpu) : Option Gpu :=
  match field w 24 8 with
  | 0x00#8 => some (gp1Reset g)
  | 0x01#8 => some (gp1ResetBuffer g)
  | 0x02#8 => some { g with status := setBit g.status 24 false }
  | 0x03#8 => some { g with status := setBit g.status 23 (w.getLsbD 0) }
  | 0x04#8 => some (gp1DmaDirection w g)
  | 0x05#8 => some { g with vramX := field w 0 10 &&& 0x3FE#10, vramY := field w 10 9 }
  | 0x06#8 => some { g with hStart := field w 0 12, hEnd := field w 12 12 }
  | 0x07#8 => some { g with vStart := field w 0 10, vEnd := field w 10 10 }
  | 0x08#8 => some { g with status := gp1DisplayMode w g.status }
  | _ => none

/-- `Gp1Exec(w)` (51_gpu.md R419). -/
def gp1Exec (w : Word) (s : State) : Res State :=
  match gp1Effect w s.gpu with
  | some g => .next (s.setGpu g)
  | none => haltUnknownGpuOpcode s

end Sys2Proof.Machine
end

