-- ==== Sys2Proof/Machine/Dma.lean ====
section
/-!
DEFINITION. The DMA controller: the register map, register reads and writes, and the block and linked-list engines,
which run to completion inside the write that activates a channel (spec/50_dma.md R330 to R356).
-/

namespace Sys2Proof.Machine

/-! ## Registers (50_dma.md R330 to R338) -/

/-- A register of the DMA region (50_dma.md R330). -/
inductive DmaReg where
  | base (n : Fin 7)
  | blockControl (n : Fin 7)
  | control (n : Fin 7)
  | globalControl
  | interrupt
  deriving DecidableEq, Repr

/-- The register at a region offset, by `major = o[6:4]` and `minor = o[3:0]`; none at the other offsets
(50_dma.md R330). -/
def dmaRegAt (o : Nat) : Option DmaReg :=
  let major := o / 16 % 8
  let minor := o % 16
  if h : major < 7 then
    match minor with
    | 0 => some (.base ⟨major, h⟩)
    | 4 => some (.blockControl ⟨major, h⟩)
    | 8 => some (.control ⟨major, h⟩)
    | _ => none
  else
    match minor with
    | 0 => some .globalControl
    | 4 => some .interrupt
    | _ => none

/-- The GPU port's channel (50_dma.md R353). -/
def gpuChannel : Fin 7 := 2

/-- The OTC port's channel (50_dma.md R353). -/
def otcChannel : Fin 7 := 6

/-- The registers of a channel. -/
def Dma.channel (d : Dma) (n : Fin 7) : DmaChannel := d.channels[n.val]

/-- The controller with a channel's registers replaced. -/
def Dma.setChannel (d : Dma) (n : Fin 7) (c : DmaChannel) : Dma := { d with channels := d.channels.set n.val c }

/-- The state with the DMA controller replaced. -/
def State.setDma (s : State) (d : Dma) : State := { s with dma := d }

/-- The registers of channel `n`. -/
def State.channel (s : State) (n : Fin 7) : DmaChannel := s.dma.channel n

/-- The state with a channel's registers replaced. -/
def State.setChannel (s : State) (n : Fin 7) (c : DmaChannel) : State := s.setDma (s.dma.setChannel n c)

/-- The bits of a channel's `control` that are stored (50_dma.md R334). -/
def controlMask : Word := 0x71770703#32

/-- `direction = FromRam` (50_dma.md R333). -/
def DmaChannel.fromRam (c : DmaChannel) : Bool := c.control.getLsbD 0

/-- `step = Decrement` (50_dma.md R333). -/
def DmaChannel.decrements (c : DmaChannel) : Bool := c.control.getLsbD 1

/-- The values of the `sync` field; 3 has no meaning (50_dma.md R333). -/
inductive Sync where
  | manual
  | request
  | linkedList
  deriving DecidableEq, Repr

/-- The `sync` field of a control word (50_dma.md R333). -/
def syncOf (control : Word) : Option Sync :=
  match field control 9 2 with
  | 0#2 => some .manual
  | 1#2 => some .request
  | 2#2 => some .linkedList
  | 3#2 => none

/-- The derived `active` (50_dma.md R335). -/
def DmaChannel.active (c : DmaChannel) : Bool :=
  c.control.getLsbD 24 && (field c.control 9 2 != 0#2 || c.control.getLsbD 28)

/-- `block_size` (50_dma.md R332). -/
def DmaChannel.blockSize (c : DmaChannel) : Nat := (field c.blockControl 0 16).toNat

/-- `block_count` (50_dma.md R332). -/
def DmaChannel.blockCount (c : DmaChannel) : Nat := (field c.blockControl 16 16).toNat

/-- The derived `transfer_size` in words, exact; a linked-list channel has none (50_dma.md R336). -/
def DmaChannel.transferSize (c : DmaChannel) : Option Nat :=
  match syncOf c.control with
  | some .manual => some c.blockSize
  | some .request => some (c.blockSize * c.blockCount)
  | _ => none

/-- The controller's `signal`: `force_irq OR (master_enable AND (channel_enable AND channel_flags) ≠ 0)`
(50_dma.md R342). -/
def irqSignal (w : Word) : Bool :=
  w.getLsbD 15 || (w.getLsbD 23 && (field w 16 7 &&& field w 24 7) != 0#7)

/-- What a read of the interrupt register returns: bits 14:6 zero and bit 31 the signal (50_dma.md R338, R339). -/
def interruptRead (w : Word) : Word := setBit (setField w 6 (0#9)) 31 (irqSignal w)

/-- `InterruptWrite(v)` on the stored word `old`: flags are cleared by written ones, bits 5:0, 15, 22:16 and 23 are
taken from `v`, the signal is recomputed (50_dma.md R342). -/
def interruptWrite (old v : Word) : Word :=
  let flags := field old 24 7 &&& ~~~(field v 24 7)
  let stored := setField (setField (setField v 24 flags) 6 (0#9)) 31 (0#1)
  setBit stored 31 (irqSignal stored)

/-- `DmaRead(o)` (50_dma.md R339). -/
def dmaRead (o : Nat) (s : State) : Res Word :=
  match dmaRegAt o with
  | some (.base n) => .next ((s.channel n).base.setWidth 32)
  | some (.blockControl n) => .next (s.channel n).blockControl
  | some (.control n) => .next (s.channel n).control
  | some .globalControl => .next s.dma.control
  | some .interrupt => .next (interruptRead s.dma.interrupt)
  | none => haltOutOfRange s

/-! ## The engines (50_dma.md R343 to R349) -/

/-- The mask the engines apply to every address (50_dma.md R345). -/
def ramMask : Word := 0x001FFFFC#32

/-- `Ram32(a)` of the masked address (50_dma.md R345). -/
def ram32 (s : State) (a : Word) : Word := s.mem.load (a &&& ramMask).toNat .word

/-- `Ram32(a) <- v` of the masked address (50_dma.md R345). -/
def setRam32 (s : State) (a v : Word) : State := { s with mem := s.mem.store (a &&& ramMask).toNat .word v }

/-- `BlockFromRam(n, cur)`: the GPU port takes the word to GP0, no other port exists (50_dma.md R346). -/
def blockFromRam (n : Fin 7) (addr : Word) (s : State) : Res State :=
  if n = gpuChannel then gp0Exec (ram32 s addr) s else haltUnimplemented s

/-- `BlockToRam(n, cur, addr, remaining)`: the OTC port writes a pointer to the word below, or the end marker at the
last word; no other port exists (50_dma.md R347). -/
def blockToRam (n : Fin 7) (addr : Word) (remaining : Nat) (s : State) : Res State :=
  if n = otcChannel then
    .next (setRam32 s addr (if remaining = 1 then 0x00FFFFFF else (addr - 4) &&& 0x001FFFFF#32))
  else haltUnimplemented s

/-- One word of a block transfer of channel registers `c` (50_dma.md R344). -/
def blockWord (n : Fin 7) (c : DmaChannel) (addr : Word) (remaining : Nat) (s : State) : Res State :=
  if c.fromRam then blockFromRam n addr s else blockToRam n addr remaining s

/-- The block engine's loop over the words that remain (50_dma.md R344). -/
def blockLoop (n : Fin 7) (c : DmaChannel) : Nat → Word → State → Res State
  | 0, _, s => .next s
  | k + 1, addr, s =>
    andThen (blockWord n c addr (k + 1) s) fun s' =>
      blockLoop n c k (if c.decrements then addr - 4 else addr + 4) s'

/-- A node's payload, words `i` onwards of the node at `cur`, `count` of them, to GP0 (50_dma.md R348). -/
def pushPayload (cur : Word) (i : Nat) : Nat → State → Res State
  | 0, s => .next s
  | count + 1, s =>
    andThen (gp0Exec (ram32 s (cur + BitVec.ofNat 32 (4 * i))) s) (pushPayload cur (i + 1) count)

/-- The linked-list engine's loop, for at most `fuel` nodes: payload first, then the terminator test (50_dma.md R348).
Running out of fuel is the list that never ends; the messages emitted on the way are not kept, DESIGN CHOICE
(assumption log 9). -/
def listLoop : Nat → Word → State → Res State
  | 0, _, _ => .fault .endlessList
  | fuel + 1, cur, s =>
    let header := ram32 s cur
    andThen (pushPayload cur 1 (field header 24 8).toNat s) fun s' =>
      if header.getLsbD 23 then .next s' else listLoop fuel (header &&& ramMask) s'

/-- 2^448 nodes. The loop reads RAM and never writes it, so a node and the parser before it decide everything that
follows. There are 2^19 node addresses, and at most 2^429 parsers (mode, `arg_remaining`, `opcode`, length and twelve
words of `buf`), so a longer walk has met the same pair twice and never ends (50_dma.md R352, assumption log 9). -/
def listFuel : Nat :=
  0x10000000000000000000000000000000000000000000000000000000000000000000000000000000000000000000000000000000000000000

/-- The linked-list engine: only the GPU port from RAM (50_dma.md R348). -/
def listEngine (n : Fin 7) (c : DmaChannel) (s : State) : Res State :=
  if n = gpuChannel ∧ c.fromRam = true then listLoop listFuel (c.base.setWidth 32 &&& ramMask) s
  else haltUnimplemented s

/-- `Transfer(n)` (50_dma.md R343, R344, R348). -/
def transfer (n : Fin 7) (s : State) : Res State :=
  let c := s.channel n
  match c.transferSize with
  | some size => blockLoop n c size (c.base.setWidth 32) s
  | none => listEngine n c s

/-- The end of a transfer: `enable` and `trigger` are cleared (50_dma.md R349). -/
def finishTransfer (n : Fin 7) (s : State) : State :=
  let c := s.channel n
  s.setChannel n { c with control := setBit (setBit c.control 24 false) 28 false }

/-- `ControlWrite(n, v)` (50_dma.md R341). -/
def controlWrite (n : Fin 7) (v : Word) (s : State) : Res State :=
  match syncOf v with
  | none => haltUnimplemented s
  | some _ =>
    let s' := s.setChannel n { s.channel n with control := v &&& controlMask }
    if (s'.channel n).active then andThen (transfer n s') fun s'' => .next (finishTransfer n s'')
    else .next s'

/-- `DmaWrite(o, v)` (50_dma.md R340). -/
def dmaWrite (o : Nat) (v : Word) (s : State) : Res State :=
  match dmaRegAt o with
  | some (.base n) => .next (s.setChannel n { s.channel n with base := field v 0 24 })
  | some (.blockControl n) => .next (s.setChannel n { s.channel n with blockControl := v })
  | some (.control n) => controlWrite n v s
  | some .globalControl => .next (s.setDma { s.dma with control := v })
  | some .interrupt => .next (s.setDma { s.dma with interrupt := interruptWrite s.dma.interrupt v })
  | none => haltOutOfRange s

end Sys2Proof.Machine
end

