-- ==== Sys2Proof/Machine/Bus.lean ====
section
/-!
DEFINITION. Address translation, the region table, and the bus load and store with each region's behaviour
(spec/20_memory.md R70 to R95).
-/

namespace Sys2Proof.Machine

/-- `SEGMASK[i]` (20_memory.md R71). -/
def segMask (i : BitVec 3) : Word :=
  match i with
  | 4#3 => 0x7FFFFFFF#32
  | 5#3 => 0x1FFFFFFF#32
  | _ => 0xFFFFFFFF#32

/-- `physical(vaddr)`; it never faults (20_memory.md R71, R72). -/
def physical (va : Word) : Word := va &&& segMask (field va 29 3)

/-- The physical regions (20_memory.md R73). -/
inductive Region where
  | ram
  | exp1
  | scratch
  | memc
  | ramSz
  | irqCnt
  | dma
  | timers
  | gpu
  | spu
  | exp2
  | bios
  | cachec
  deriving DecidableEq, Repr

/-- A row of the region table. -/
structure RegionRow where
  region : Region
  start : Nat
  length : Nat
  deriving DecidableEq, Repr

/-- The region table (20_memory.md R73). -/
def regionTable : List RegionRow := [
  ⟨.ram, 0x00000000, Config.ramSize⟩,
  ⟨.exp1, 0x1F000000, 0x800000⟩,
  ⟨.scratch, Config.scratchStart, Config.scratchSize⟩,
  ⟨.memc, 0x1F801000, 36⟩,
  ⟨.ramSz, 0x1F801060, 4⟩,
  ⟨.irqCnt, 0x1F801070, 8⟩,
  ⟨.dma, 0x1F801080, 0x80⟩,
  ⟨.timers, 0x1F801100, 0x30⟩,
  ⟨.gpu, 0x1F801810, 8⟩,
  ⟨.spu, 0x1F801C00, 640⟩,
  ⟨.exp2, 0x1F802000, 66⟩,
  ⟨.bios, Config.biosStart, Config.biosSize⟩,
  ⟨.cachec, 0xFFFE0130, 4⟩]

/-- The row's region contains the physical address (20_memory.md R74). -/
def RegionRow.contains (r : RegionRow) (p : Nat) : Bool := r.start ≤ p && p < r.start + r.length

/-- The first region that contains the physical address (20_memory.md R74). -/
def regionAt (p : Nat) : Option RegionRow := regionTable.find? (·.contains p)

/-- A 32-bit load from the GPU region (20_memory.md R87). -/
def gpuRead (o : Nat) (s : State) : Res Word :=
  if o = 0 then .next 0 else if o = 4 then .next s.gpu.status else haltOutOfRange s

/-- A 32-bit store to the GPU region (20_memory.md R87). -/
def gpuWrite (o : Nat) (v : Word) (s : State) : Res State :=
  if o = 0 then gp0Exec v s else if o = 4 then gp1Exec v s else haltOutOfRange s

/-- The load behaviour of a region at physical address `p`, offset `o` (20_memory.md R78 to R88). -/
def regionRead (r : Region) (p o : Nat) (n : Width) (s : State) : Res Word :=
  match r with
  | .ram => .next (s.mem.load p n)
  | .bios => .next (s.mem.load p n)
  | .exp1 => .next 0xFF
  | .spu => .next 0
  | .irqCnt => .next 0
  | .timers => .next 0
  | .dma => if n = .word then dmaRead o s else haltBadWidth s
  | .gpu => if n = .word then gpuRead o s else haltBadWidth s
  | .scratch => haltOutOfRange s
  | .memc => haltOutOfRange s
  | .ramSz => haltOutOfRange s
  | .cachec => haltOutOfRange s
  | .exp2 => haltOutOfRange s

/-- The store behaviour of a region at physical address `p`, offset `o` (20_memory.md R78 to R88). -/
def regionWrite (r : Region) (p o : Nat) (n : Width) (v : Word) (s : State) : Res State :=
  match r with
  | .ram => .next { s with mem := s.mem.store p n v }
  | .dma => if n = .word then dmaWrite o v s else haltBadWidth s
  | .gpu => if n = .word then gpuWrite o v s else haltBadWidth s
  | .spu => .next s
  | .irqCnt => .next s
  | .timers => .next s
  | .memc => .next s
  | .ramSz => .next s
  | .cachec => .next s
  | .exp2 => .next s
  | .bios => haltOutOfRange s
  | .exp1 => haltOutOfRange s
  | .scratch => haltOutOfRange s

/-- `MemRead(vaddr, n)`, the value zero-extended to a word (20_memory.md R76). It changes no state (R93). -/
def memRead (va : Word) (n : Width) (s : State) : Res Word :=
  match regionAt (physical va).toNat with
  | some row => regionRead row.region (physical va).toNat ((physical va).toNat - row.start) n s
  | none => haltOutOfRange s

/-- `MemWrite(vaddr, n, v)` with the low bytes of `v` (20_memory.md R77). -/
def memWrite (va : Word) (n : Width) (v : Word) (s : State) : Res State :=
  match regionAt (physical va).toNat with
  | some row => regionWrite row.region (physical va).toNat ((physical va).toNat - row.start) n v s
  | none => haltOutOfRange s

end Sys2Proof.Machine
end

