-- ==== Sys2Proof/Machine/LoadStore.lean ====
section
/-!
DEFINITION. Loads and stores (spec/40_loads_stores.md R160 to R177). The order of events is R163: the isolate-cache
gate, the address, the alignment test, the bus, and for a load the pending slot.
-/

namespace Sys2Proof.Machine

/-- A load of width `n` whose bus value is extended by `ext` (40_loads_stores.md R161 to R168). -/
def loadWith (n : Width) (ext : Word → Word) (rt rs : RegIdx) (imm : BitVec 16) (s : State) : Res State :=
  let addr := effAddr s rs imm
  if isolated s then .next s
  else if aligned addr n then andThen (memRead addr n s) fun v => .next (s.setPending rt (ext v))
  else .next (raise .loadAddr s)

/-- An unaligned-word load: the aligned word merged into the write-back value of `rt`
(40_loads_stores.md R169, R170). -/
def loadMerge (merge : Word → Word → Word → Word) (rt rs : RegIdx) (imm : BitVec 16) (s : State) : Res State :=
  let addr := effAddr s rs imm
  if isolated s then .next s
  else andThen (memRead (alignWord addr) .word s) fun w => .next (s.setPending rt (merge addr (s.out rt) w))

/-- A store of width `n` (40_loads_stores.md R171 to R173). -/
def storeWith (n : Width) (rt rs : RegIdx) (imm : BitVec 16) (s : State) : Res State :=
  let addr := effAddr s rs imm
  if isolated s then .next s
  else if aligned addr n then memWrite addr n (s.x rt) s
  else .next (raise .storeAddr s)

/-- An unaligned-word store: a read and a write of the aligned word (40_loads_stores.md R174, R175). -/
def storeMerge (merge : Word → Word → Word → Word) (rt rs : RegIdx) (imm : BitVec 16) (s : State) : Res State :=
  let addr := effAddr s rs imm
  if isolated s then .next s
  else andThen (memRead (alignWord addr) .word s) fun m =>
    memWrite (alignWord addr) .word (merge addr m (s.x rt)) s

/-- `sext_8` of a bus value. -/
def signByte (v : Word) : Word := (field v 0 8).signExtend 32

/-- `sext_16` of a bus value. -/
def signHalf (v : Word) : Word := (field v 0 16).signExtend 32

/-- `lb` (40_loads_stores.md R164). -/
def execLb (rt rs : RegIdx) (imm : BitVec 16) (s : State) : Res State := loadWith .byte signByte rt rs imm s

/-- `lbu` (40_loads_stores.md R165). -/
def execLbu (rt rs : RegIdx) (imm : BitVec 16) (s : State) : Res State := loadWith .byte id rt rs imm s

/-- `lh` (40_loads_stores.md R166). -/
def execLh (rt rs : RegIdx) (imm : BitVec 16) (s : State) : Res State := loadWith .half signHalf rt rs imm s

/-- `lhu` (40_loads_stores.md R167). -/
def execLhu (rt rs : RegIdx) (imm : BitVec 16) (s : State) : Res State := loadWith .half id rt rs imm s

/-- `lw` (40_loads_stores.md R168). -/
def execLw (rt rs : RegIdx) (imm : BitVec 16) (s : State) : Res State := loadWith .word id rt rs imm s

/-- `lwl` (40_loads_stores.md R169). -/
def execLwl (rt rs : RegIdx) (imm : BitVec 16) (s : State) : Res State := loadMerge mergeLwl rt rs imm s

/-- `lwr` (40_loads_stores.md R170). -/
def execLwr (rt rs : RegIdx) (imm : BitVec 16) (s : State) : Res State := loadMerge mergeLwr rt rs imm s

/-- `sb` (40_loads_stores.md R171). -/
def execSb (rt rs : RegIdx) (imm : BitVec 16) (s : State) : Res State := storeWith .byte rt rs imm s

/-- `sh` (40_loads_stores.md R172). -/
def execSh (rt rs : RegIdx) (imm : BitVec 16) (s : State) : Res State := storeWith .half rt rs imm s

/-- `sw` (40_loads_stores.md R173). -/
def execSw (rt rs : RegIdx) (imm : BitVec 16) (s : State) : Res State := storeWith .word rt rs imm s

/-- `swl` (40_loads_stores.md R174). -/
def execSwl (rt rs : RegIdx) (imm : BitVec 16) (s : State) : Res State := storeMerge mergeSwl rt rs imm s

/-- `swr` (40_loads_stores.md R175). -/
def execSwr (rt rs : RegIdx) (imm : BitVec 16) (s : State) : Res State := storeMerge mergeSwr rt rs imm s

end Sys2Proof.Machine
end

