-- ==== Sys2Proof/Machine/MulDiv.lean ====
section
/-!
DEFINITION. Multiply, divide and the HI/LO moves (spec/43_muldiv.md R240 to R248). Results are exact integers narrowed at the
end; nothing here raises an exception (R240).
-/

namespace Sys2Proof.Machine

/-- `hi` and `lo` written together. -/
def State.setHiLo (s : State) (hi lo : Word) : State := { s with hi := hi, lo := lo }

/-- The upper and lower words of a product modulo 2^64 (43_muldiv.md R241, R242). -/
def writeProduct (p : BitVec 64) (s : State) : State := s.setHiLo (p.extractLsb' 32 32) (p.extractLsb' 0 32)

/-- `(hi, lo)` of the signed division of `n` by `d`, with its two special cases (43_muldiv.md R243). -/
def divSigned (n d : Word) : Word × Word :=
  if d = 0 then (n, if 0 ≤ n.toInt then 0xFFFFFFFF#32 else 0x00000001#32)
  else if n = 0x80000000#32 ∧ d = 0xFFFFFFFF#32 then (0x00000000#32, 0x80000000#32)
  else (BitVec.ofInt 32 (n.toInt.tmod d.toInt), BitVec.ofInt 32 (n.toInt.tdiv d.toInt))

/-- `(hi, lo)` of the unsigned division of `n` by `d` (43_muldiv.md R244). -/
def divUnsigned (n d : Word) : Word × Word :=
  if d = 0 then (n, 0xFFFFFFFF#32)
  else (BitVec.ofNat 32 (n.toNat % d.toNat), BitVec.ofNat 32 (n.toNat / d.toNat))

/-- `mult rs, rt` (43_muldiv.md R241). -/
def execMult (rs rt : RegIdx) (s : State) : Res State :=
  .next (writeProduct (BitVec.ofInt 64 ((s.x rs).toInt * (s.x rt).toInt)) s)

/-- `multu rs, rt` (43_muldiv.md R242). -/
def execMultu (rs rt : RegIdx) (s : State) : Res State :=
  .next (writeProduct (BitVec.ofNat 64 ((s.x rs).toNat * (s.x rt).toNat)) s)

/-- `div rs, rt` (43_muldiv.md R243). -/
def execDiv (rs rt : RegIdx) (s : State) : Res State :=
  .next (s.setHiLo (divSigned (s.x rs) (s.x rt)).1 (divSigned (s.x rs) (s.x rt)).2)

/-- `divu rs, rt` (43_muldiv.md R244). -/
def execDivu (rs rt : RegIdx) (s : State) : Res State :=
  .next (s.setHiLo (divUnsigned (s.x rs) (s.x rt)).1 (divUnsigned (s.x rs) (s.x rt)).2)

/-- `mfhi rd` (43_muldiv.md R245). -/
def execMfhi (rd : RegIdx) (s : State) : Res State := .next (s.writeReg rd s.hi)

/-- `mflo rd` (43_muldiv.md R246). -/
def execMflo (rd : RegIdx) (s : State) : Res State := .next (s.writeReg rd s.lo)

/-- `mthi rs` (43_muldiv.md R247). -/
def execMthi (rs : RegIdx) (s : State) : Res State := .next (s.setHiLo (s.x rs) s.lo)

/-- `mtlo rs` (43_muldiv.md R248). -/
def execMtlo (rs : RegIdx) (s : State) : Res State := .next (s.setHiLo s.hi (s.x rs))

end Sys2Proof.Machine
end

