-- ==== Sys2Proof/Machine/Trap.lean ====
section
/-!
DEFINITION. The trapping instructions and the meaning of a word that decodes to nothing (spec/46_traps.md R320 to R322).
-/

namespace Sys2Proof.Machine

/-- `syscall` (46_traps.md R320). -/
def execSyscall (_code : BitVec 20) (s : State) : Res State := .next (raise .sysCall s)

/-- `break` (46_traps.md R321). -/
def execBreak (_code : BitVec 20) (s : State) : Res State := .next (raise .breakpoint s)

/-- A word that decodes to no instruction (46_traps.md R322). -/
def execIllegal (s : State) : Res State := .next (raise .illegalInstr s)

end Sys2Proof.Machine
end

