-- ==== Sys2Proof/Machine/Cycle.lean ====
section
/-!
DEFINITION. One pass of the fetch/execute cycle of a machine that has not been shut down (spec/10_state.md R30 to R35,
spec/60_exceptions.md R478).
-/

namespace Sys2Proof.Machine

/-- Step 2: the instruction word at `current_pc`, a 32-bit bus load that may halt (10_state.md R30). -/
def fetch (s : State) : Res Word := memRead s.currentPc .word s

/-- Step 6 up to the commit: decode, and the instruction's rule or the illegal-instruction exception
(10_state.md R30, 46_traps.md R322). -/
def execWord (w : Word) (s : State) : Res State :=
  match decode w with
  | .ok i => exec i s
  | .error _ => execIllegal s

/-- Steps 1 to 7. A misaligned `pc` raises `LoadAddr` and ends the step: no fetch, no commit, the pending load and the
flags kept (10_state.md R30, R31). -/
def runStep (s : State) : Res State :=
  let s1 := capturePc s
  if aligned s1.currentPc .word then
    andThen (fetch s1) fun w =>
      andThen (execWord w (advance s1)) fun t => .next (commit t)
  else .next (raise .loadAddr s1)

/-- The machine is at an address where a word can be placed for it to fetch: aligned, in RAM or BIOS. -/
def fetchesMemory (s : State) : Bool :=
  aligned s.pc .word &&
    match regionAt (physical s.pc).toNat with
    | some row => row.region == .ram || row.region == .bios
    | none => false

/-- A state that is about to fetch from RAM or BIOS and is not shut down: `s` itself but for the shutdown flag, or at
the reset vector where `s` fetches from neither (assumption log 13). -/
def readyToFetch (s : State) : State :=
  if fetchesMemory s then { s with shutdown := false }
  else { s with shutdown := false, pc := Config.resetPc, nextPc := Config.resetPc + 4 }

/-- The state with a word placed in memory where its next step fetches, as the host's load of the BIOS image places a
program before the first step (52_host.md R450, assumption log 5). -/
def placeWord (s : State) (w : Word) : State :=
  let s' := readyToFetch s
  { s' with mem := s'.mem.store (physical s'.pc).toNat .word w }

end Sys2Proof.Machine
end

