-- ==== Sys2Proof/Machine/Step.lean ====
section
/-!
DEFINITION. One step of the machine (spec/10_state.md R30; spec/52_host.md R455, R456), and the host's placing of one
instruction where the next step fetches.
-/

namespace Sys2Proof.Machine

/-- The shutdown flag is read before each step; when it is set no further step is taken and the state stays whatever
it is (52_host.md R455, R456, assumption log 7). Otherwise one pass of the fetch/execute cycle. -/
def step (s : State) : Host.Outcome State Fault Refusal := if s.shutdown then .next s else runStep s

/-- `s` with the instruction `w` (its bits above `nbits` zero) where `step` fetches next (assumption log 13). -/
def State.withFetchWord (s : State) (nbits w : Nat) : State := placeWord s (BitVec.ofNat 32 (w % 2 ^ nbits))

end Sys2Proof.Machine
end

