-- ==== Sys2Proof/Machine/HostInterface.lean ====
section
/-!
DEFINITION. The host's moves (spec/52_host.md R450, R451, R455, R459): supplying the BIOS image at power-on, with the
other open parameters of spec/92_eei_decisions.md beside it, and setting the shutdown flag. Consuming a message changes
no machine state (R453).
-/

namespace Sys2Proof.Machine

/-- The open parameters of a run (00_scope.md R6, 92_eei_decisions.md P1 to P4): what the registers, RAM and SCRATCH
hold at power-on, and the BIOS image the host supplies. -/
structure ResetParams where
  /-- `GPR_RESET`; entry 0 is not used. -/
  gpr : RegFile
  /-- `HI_RESET`. -/
  hi : Word
  /-- `LO_RESET`. -/
  lo : Word
  /-- `RAM_INIT`, by RAM offset. -/
  ram : Memory
  /-- The contents of SCRATCH, by physical address. -/
  scratch : Memory
  /-- `BIOS_IMAGE`, byte 0 first. -/
  bios : List Byte
  deriving DecidableEq, Repr

/-- Bytes placed from an address up, in the canonical form. -/
def cellsFrom : Nat → List Byte → Memory
  | _, [] => []
  | a, b :: rest => Memory.entry a b (cellsFrom (a + 1) rest)

/-- The cells of a memory that lie in the `size` bytes from `start` up. -/
def Memory.within (start size : Nat) (m : Memory) : Memory :=
  m.filter fun c => start ≤ c.1 && c.1 < start + size

/-- Memory at power-on: RAM and SCRATCH as the parameters have them, BIOS the host's image (00_scope.md R6, 10_state.md
R51, 52_host.md R450). -/
def powerOnMemory (p : ResetParams) : Memory :=
  p.ram.within 0 Config.ramSize ++
    (p.scratch.within Config.scratchStart Config.scratchSize ++ cellsFrom Config.biosStart p.bios)

/-- The reset state for given open parameters (10_state.md R50 to R53). -/
def resetWith (p : ResetParams) : State :=
  { State.reset with
    gpr := p.gpr.set 0 0
    outGpr := p.gpr.set 0 0
    hi := p.hi
    lo := p.lo
    mem := powerOnMemory p }

/-- Power-on: a BIOS image of another length than `BIOS_SIZE` is the fatal error `InvalidBios` and no step is taken
(52_host.md R450, R451). -/
def powerOn (p : ResetParams) : Res State :=
  if p.bios.length = Config.biosSize then .next (resetWith p) else .fault .invalidBios

/-- The host sets the shutdown flag, between any two steps; nothing clears it (52_host.md R455, R459). -/
def setShutdown (s : State) : State := { s with shutdown := true }

end Sys2Proof.Machine
end

