-- ==== Sys2Proof/Safety.lean ====
section
/-!
DEFINITION. The terms claims are stated in: the invariants of the machine between steps, what it is for an instruction
to have one effect and no other, what it is for a state to be about to run an instruction, and the plain readings of
memory and of the GP0 word stream that claims compare the engines with.
-/

namespace Sys2Proof

/-- The bits of an instruction's word that the decoder examines or takes as an operand: the opcode table's mask and the
table's fields (30_encoding.md R138, R139). -/
def Instr.examinedBits : Instr → Word
  | .sll _ _ _ | .srl _ _ _ | .sra _ _ _ => 0xFC1FFFFF#32
  | .sllv _ _ _ | .srlv _ _ _ | .srav _ _ _ => 0xFFFFF83F#32
  | .add _ _ _ | .addu _ _ _ | .sub _ _ _ | .subu _ _ _ | .and _ _ _ | .or _ _ _ | .xor _ _ _ | .nor _ _ _ => 0xFFFFF83F#32
  | .slt _ _ _ | .sltu _ _ _ => 0xFFFFF83F#32
  | .jr _ | .mthi _ | .mtlo _ => 0xFFE0003F#32
  | .jalr _ _ => 0xFFE0F83F#32
  | .mfhi _ | .mflo _ => 0xFC00F83F#32
  | .mult _ _ | .multu _ _ | .div _ _ | .divu _ _ => 0xFFFF003F#32
  | .blez _ _ | .bgtz _ _ => 0xFFE0FFFF#32
  | .lui _ _ => 0xFC1FFFFF#32
  | .mfc0 _ _ | .mtc0 _ _ => 0xFFFFF800#32
  | .rfe => 0xFFE00000#32
  | _ => 0xFFFFFFFF#32

namespace Machine

/-! ## Invariants of the state between steps -/

/-- A physical address that one of the three byte arrays holds (10_state.md R36). -/
def Backed (a : Nat) : Prop :=
  a < Config.ramSize ∨ (Config.scratchStart ≤ a ∧ a < Config.scratchStart + Config.scratchSize) ∨
    (Config.biosStart ≤ a ∧ a < Config.biosStart + Config.biosSize)

/-- The register files between steps (10_state.md R20, R21, R32). -/
structure RegsInv (s : State) : Prop where
  committed : s.outGpr = s.gpr
  zero : s.x 0 = 0

/-- The memory between steps: the canonical form, and nothing listed outside the byte arrays (10_state.md R36). -/
structure MemInv (s : State) : Prop where
  wf : s.mem.wf
  backed : ∀ c ∈ s.mem, Backed c.1

/-- The DMA controller between steps (50_dma.md R334, R335, R338, R341). -/
structure DmaInv (d : Dma) : Prop where
  normalized : ∀ n, (d.channel n).control &&& ~~~controlMask = 0
  meaningful : ∀ n, syncOf (d.channel n).control ≠ none
  idle : ∀ n, (d.channel n).active = false
  reserved : field d.interrupt 6 9 = 0
  noFlags : field d.interrupt 24 7 = 0
  signal : d.interrupt.getLsbD 31 = d.interrupt.getLsbD 15

/-- The GP0 parser between words (51_gpu.md R385, R386): in an image load words are still to come; a command being
assembled has a row, and the words it holds and the words to come are its `argc`. -/
def ParserInv (g : Gpu) : Prop :=
  match g.mode with
  | .imageLoad => g.argRemaining ≠ 0
  | .command =>
    g.argRemaining = 0 ∨
      ∃ c, gp0Lookup g.opcode = some c ∧ g.buf.length + g.argRemaining.toNat = c.argc.toNat

/-- The GPU front end between words: the status bits nothing changes, `dma_request` as the direction and the ready bits
give it, the even display start, the parser (51_gpu.md R380, R384 to R386, R424). -/
structure GpuInv (g : Gpu) : Prop where
  fieldBit : g.status.getLsbD 13 = true
  vres : g.status.getLsbD 19 = false
  irq : g.status.getLsbD 24 = false
  cmdReady : g.status.getLsbD 26 = true
  vramReady : g.status.getLsbD 27 = false
  dmaReady : g.status.getLsbD 28 = true
  lineStatus : g.status.getLsbD 31 = false
  request : g.status.getLsbD 25 = (g.status.getLsbD 29 != g.status.getLsbD 30)
  evenStart : g.vramX.getLsbD 0 = false
  capacity : g.buf.length ≤ 12
  parser : ParserInv g

/-- The values `cause` ever holds: 0, and what an exception writes, in a delay slot or not (60_exceptions.md R470,
R472). -/
def legalCauses : List Word :=
  [0x00000000, 0x00000010, 0x00000014, 0x00000020, 0x00000024, 0x00000028, 0x0000002C, 0x00000030,
    0x80000010, 0x80000014, 0x80000020, 0x80000024, 0x80000028, 0x8000002C, 0x80000030]

/-- The invariant of the whole machine between steps. -/
structure State.Inv (s : State) : Prop where
  regs : RegsInv s
  mem : MemInv s
  dma : DmaInv s.dma
  gpu : GpuInv s.gpu
  cause : s.cause ∈ legalCauses

/-! ## Effects -/

/-- The one change from `s` to `t` is that the write-back entry `r` holds `v`. -/
def WritesReg (s t : State) (r : RegIdx) (v : Word) : Prop :=
  t = { s with outGpr := t.outGpr } ∧ t.out r = v ∧ ∀ q, q ≠ r → t.out q = s.out q

/-- The one change is that the pending-load slot holds `(r, v)`. -/
def FillsPending (s t : State) (r : RegIdx) (v : Word) : Prop := t = { s with pending := ⟨r, v⟩ }

/-- The one change is that `hi` and `lo` hold these values. -/
def WritesHiLo (s t : State) (hi lo : Word) : Prop := t = { s with hi := hi, lo := lo }

/-- The one change is that the fetch after the next is from `target`, and that a branch was taken. -/
def TakesBranch (s t : State) (target : Word) : Prop := t = { s with nextPc := target, branchTaken := true }

/-- The changes are those of exception entry with this cause, not in a delay slot and in one: the mode stack pushed,
the cause register whole, the restart address, the handler's address (60_exceptions.md R474). -/
structure EntersException (causeOutside causeInSlot : Word) (s t : State) : Prop where
  frame : t = { s with pc := t.pc, nextPc := t.nextPc, sr := t.sr, cause := t.cause, epc := t.epc }
  pc : t.pc = if s.sr.getLsbD 22 then 0xBFC00180#32 else 0x80000080#32
  nextPc : t.nextPc = t.pc + 4
  current : field t.sr 0 2 = 0
  previous : field t.sr 2 2 = field s.sr 0 2
  old : field t.sr 4 2 = field s.sr 2 2
  upper : field t.sr 6 26 = field s.sr 6 26
  cause : t.cause = if s.inDelaySlot then causeInSlot else causeOutside
  epc : t.epc = if s.inDelaySlot then s.currentPc - 4 else s.currentPc

/-- The one change is in memory: the low bytes of `v` at physical `p` up, every byte outside them as before. -/
def StoresTo (s t : State) (p : Nat) (n : Width) (v : Word) : Prop :=
  t = { s with mem := t.mem } ∧ (∀ k, k < n.bytes → t.mem.read (p + k) = byteOf v k) ∧
    ∀ a, a < p ∨ p + n.bytes ≤ a → t.mem.read a = s.mem.read a

/-- Everything of the CPU is as before: the changes are in memory, the devices and the message output. -/
def KeepsCpu (s t : State) : Prop :=
  t = { s with mem := t.mem, dma := t.dma, gpu := t.gpu, messages := t.messages }

/-! ## Readings -/

/-- The virtual address lies in RAM (20_memory.md R71, R73). -/
def InRam (va : Word) : Prop := (physical va).toNat < Config.ramSize

/-- The next step of `s` fetches and runs `i`: not shut down, aligned, and the fetched word decodes to `i`
(10_state.md R30). -/
def Runs (s : State) (i : Instr) : Prop :=
  s.shutdown = false ∧ aligned s.pc .word = true ∧
    ∃ w, fetch (capturePc s) = .next w ∧ decode w = .ok i

/-- The words in order into GP0 (51_gpu.md R388). -/
def gp0All : List Word → State → Res State
  | [], s => .next s
  | w :: ws, s => andThen (gp0Exec w s) (gp0All ws)

/-- The payload of the list node at `cur` (50_dma.md R348). -/
def nodePayload (m : Memory) (cur : Word) : List Word :=
  (List.range (field (m.load (cur &&& ramMask).toNat .word) 24 8).toNat).map fun i =>
    m.load ((cur + BitVec.ofNat 32 (4 * (i + 1))) &&& ramMask).toNat .word

/-- The payload words of the list from `cur`, in order, if a terminator is met within `k` nodes (50_dma.md R348). -/
def listPayload (m : Memory) : Nat → Word → Option (List Word)
  | 0, _ => none
  | k + 1, cur =>
    let header := m.load (cur &&& ramMask).toNat .word
    if header.getLsbD 23 then some (nodePayload m cur)
    else (listPayload m k (header &&& ramMask)).map (nodePayload m cur ++ ·)

end Machine

end Sys2Proof
end

