-- ==== Sys2Proof/Certificates/Slice0/Obligations.lean ====
section
/-!
DEFINITION. The statements for the provers, one `def Obligations.<Name> : Prop` each (OBLIGATIONS.json lists them).
Every statement is about all states and operands that meet its hypotheses, those no run reaches among them.
-/

open Sys2Proof
open Sys2Proof.Machine

/-- For every well-formed instruction, with every operand at every value, decode of its encoded word is that
instruction. The opcode numbers are the ones the spec takes from general knowledge (D2). (30_encoding.md section 4
(the opcode maps), 30_encoding.md section 1 (fields).) -/
def Obligations.DecodeEncodeRoundTrip : Prop :=
  ∀ i : Instr, i.WellFormed → decode (encode i) = .ok i

/-- If a word decodes to an instruction, the instruction is well formed, and its encoding agrees with the word on every
bit the decoder examines or takes as an operand (the opcode table's mask and fields). The opcode numbers and the
recognition of rfe are the spec's decisions D2, D7 (log 8). (30_encoding.md section 5 (ignored fields),
30_encoding.md section 2 (decode procedure).) -/
def Obligations.DecodedInstructionKeepsTheWordsBits : Prop :=
  ∀ (w : Word) (i : Instr), decode w = .ok i →
    i.WellFormed ∧ encode i &&& i.examinedBits = w &&& i.examinedBits

/-- For every word: if it decodes to an instruction, the first row of the opcode table that it fits bears that
instruction's mnemonic; if it decodes to nothing, it fits no row. The numbers and the COP0 rows are the spec's
decisions D2, D6, D7 (log 8). (30_encoding.md section 4 (the complete instruction list), 46_traps.md.) -/
def Obligations.DecodeIsTheFirstMatchingTableRow : Prop :=
  (∀ (w : Word) (i : Instr), decode w = .ok i → tableMnemonic w = some i.mnemonic) ∧
    ∀ (w : Word) (e : DecodeError), decode w = .error e → tableMnemonic w = none

/-- One or two words of each family, written out from the spec's encodings, decode to the instruction they stand for,
and three illegal words are rejected by name. The opcode numbers, 0x42000001 as rfe and 0x40400000 as illegal are
the spec's decisions D2, D7 and D6, the operand fields of mtc0 and jalr its D53 and general-knowledge passage G1
(log 8). (30_encoding.md section 4, 95_test_vectors.md sections 1 to 9.) -/
def Obligations.SampleWordsDecode : Prop :=
  decode 0x3C080013#32 = .ok (.lui 8 0x0013) ∧
    decode 0x00221820#32 = .ok (.add 3 1 2) ∧
    decode 0x00021FC0#32 = .ok (.sll 3 2 31) ∧
    decode 0x2823FFFF#32 = .ok (.slti 3 1 0xFFFF) ∧
    decode 0x0022001A#32 = .ok (.div 1 2) ∧
    decode 0x04300004#32 = .ok (.bltzal 1 4) ∧
    decode 0x043E0004#32 = .ok (.bltz 1 0b1111 4) ∧
    decode 0x0BF00040#32 = .ok (.j 0x3F00040) ∧
    decode 0x00201809#32 = .ok (.jalr 3 1) ∧
    decode 0x40816000#32 = .ok (.mtc0 1 12) ∧
    decode 0x42000001#32 = .ok .rfe ∧
    decode 0x03FFFFCC#32 = .ok (.syscall 0xFFFFF) ∧
    decode 0x8C22FFFC#32 = .ok (.lw 2 1 0xFFFC) ∧
    decode 0xB8220002#32 = .ok (.swr 2 1 2) ∧
    decode 0xEC000000#32 = .ok (.swc3 0 0 0) ∧
    decode 0x50000000#32 = .error (.unassignedOpcode 0x14) ∧
    decode 0x0000000A#32 = .error (.unassignedFunct 0x0A) ∧
    decode 0x40400000#32 = .error (.unassignedCop0 2)

/-- In every state that is not shut down and whose pc is aligned, where the word fetched at pc decodes to i: the step is
exec of i on the state with current_pc captured, pc and next_pc advanced, the pending load applied to the write-back
array and its slot emptied and the delay-slot flags shuffled, followed by the zeroing of out_gpr[0] and the commit.
(10_state.md section 3 (the step cycle).) -/
def Obligations.StepRunsTheDecodedInstruction : Prop :=
  ∀ (s : State) (w : Word) (i : Instr),
    s.shutdown = false → s.pc &&& 3#32 = 0 → memRead s.pc .word s = .next w → decode w = .ok i →
    step s =
      andThen
        (exec i
          { s with
            currentPc := s.pc
            pc := s.nextPc
            nextPc := s.nextPc + 4
            outGpr := s.outGpr.set s.pending.reg s.pending.value
            pending := ⟨0, 0⟩
            inDelaySlot := s.branchTaken
            branchTaken := false })
        fun t => .next { t with outGpr := t.outGpr.set 0 0, gpr := t.outGpr.set 0 0 }

/-- In every state that is not shut down and whose pc is aligned, where the word fetched at pc decodes to nothing (its
op, funct or COP0 selector is unassigned), the step answers a next state: exception entry with the IllegalInstr code
on the advanced state, committed. No general register but the pending load's and no memory is written. The code
number is the one the spec takes from general knowledge (D1). That an unassigned COP0 selector is illegal too is the
spec's decision D6, that the faulting step still commits the pending load its D51 (log 8). (46_traps.md (illegal
encodings), 60_exceptions.md section 2.) -/
def Obligations.UndecodableWordTakesIllegalInstruction : Prop :=
  ∀ (s : State) (w : Word) (e : DecodeError),
    s.shutdown = false → s.pc &&& 3#32 = 0 → memRead s.pc .word s = .next w → decode w = .error e →
    ∃ u, EntersException 0x00000028 0x80000028 (advance (capturePc s)) u ∧ step s = .next (commit u)

/-- In every state that is not shut down: if pc is not a multiple of 4 the step answers a next state that is exception
entry with the LoadAddr code at current_pc = pc, with registers, pending load and flags kept (the spec's decision
D8); if pc is aligned and the 32-bit bus load at pc stops with a fault, the step is that fault. The code number is
the spec's D1 (log 8). (10_state.md section 3 (misaligned fetch), 60_exceptions.md section 4, 20_memory.md section
3.) -/
def Obligations.MisalignedOrRefusedFetch : Prop :=
  (∀ s : State, s.shutdown = false → s.pc &&& 3#32 ≠ 0 →
      ∃ t, step s = .next t ∧ EntersException 0x00000010 0x80000010 { s with currentPc := s.pc } t) ∧
    ∀ (s : State) (f : Fault), s.shutdown = false → s.pc &&& 3#32 = 0 → memRead s.pc .word s = .fault f →
      step s = .fault f

/-- A step of a state whose shutdown flag is set leaves that state as it is (answering the same state is the model's
choice, log 7), and a step of any state that answers a next state leaves the flag as it was. (52_host.md section 3
(the shutdown input).) -/
def Obligations.ShutdownStopsTheMachine : Prop :=
  (∀ s : State, step (setShutdown s) = .next (setShutdown s)) ∧
    ∀ s t : State, step s = .next t → t.shutdown = s.shutdown

/-- For a state with committed registers that runs lw rt and then runs addu rd, ra, rb: after the lw every register but
that of an earlier pending load is as before it; the addu computes from those values; after it rt holds the loaded
word, unless rt is r0 or the addu wrote rt. (70_reset_and_hazards.md section 3 (load delay slot), 40_loads_stores.md
section 1.) -/
def Obligations.LoadIsNotVisibleToTheNextInstruction : Prop :=
  ∀ (s t u : State) (rt rs : RegIdx) (imm : BitVec 16) (rd ra rb : RegIdx) (v : Word),
    RegsInv s → Runs s (.lw rt rs imm) → isolated s = false → aligned (effAddr s rs imm) .word = true →
    memRead (effAddr s rs imm) .word s = .next v →
    step s = .next t → Runs t (.addu rd ra rb) → step t = .next u →
    (∀ q, q ≠ s.pending.reg → t.x q = s.x q) ∧
      (rd ≠ 0 → u.x rd = t.x ra + t.x rb) ∧
      (rt ≠ 0 → rt ≠ rd → u.x rt = v)

/-- For a state that runs an instruction with sequential next_pc and then runs a syscall: if the first instruction was a
taken branch or jump, the syscall's epc is the address of the branch and cause is 0x80000020; if not, epc is the
syscall's own address and cause is 0x00000020. That an untaken branch has no delay slot is the spec's decision D13,
the code in cause its D1 (log 8). (60_exceptions.md section 2 (exception in a delay slot), 44_branches_jumps.md
section 1.) -/
def Obligations.ExceptionInADelaySlotRestartsAtTheBranch : Prop :=
  ∀ (s t u : State) (i : Instr) (code : BitVec 20),
    Runs s i → s.nextPc = s.pc + 4 → step s = .next t → Runs t (.syscall code) → step t = .next u →
    (t.branchTaken = true → u.epc = s.pc ∧ u.cause = 0x80000020#32) ∧
      (t.branchTaken = false → u.epc = t.pc ∧ u.cause = 0x00000020#32)

/-- The reset state meets the whole-machine invariant; pc and next_pc, the empty pending slot, the flags, sr, cause,
epc, the DMA registers, and of the GPU the status word, texture window, flip bits, draw area and offset, display
registers and parser hold the values the spec gives; the message sequence is empty and the shutdown flag clear. The
registers the spec leaves open are not mentioned. The values are the spec's own decisions D14 (flags, pending, sr,
cause, epc), D26 (interrupt), D28 (channels) and D35 (GPU), log 8. (10_state.md section 5 (reset values), 51_gpu.md
section 1.) -/
def Obligations.ResetMeetsTheInvariant : Prop :=
  State.reset.Inv ∧ State.reset.pc = 0xBFC00000#32 ∧ State.reset.nextPc = 0xBFC00004#32 ∧
    State.reset.pending = ⟨0, 0⟩ ∧ State.reset.branchTaken = false ∧ State.reset.inDelaySlot = false ∧
    State.reset.sr = 0 ∧ State.reset.cause = 0 ∧ State.reset.epc = 0 ∧
    State.reset.dma.control = 0x07654321#32 ∧ State.reset.dma.interrupt = 0 ∧
    (∀ n, State.reset.dma.channel n = ⟨0, 0, 0⟩) ∧
    State.reset.gpu.status = 0x14802000#32 ∧ State.reset.gpu.hStart = 0x200 ∧ State.reset.gpu.hEnd = 0xC00 ∧
    State.reset.gpu.vStart = 0x10 ∧ State.reset.gpu.vEnd = 0x100 ∧ State.reset.gpu.mode = .command ∧
    State.reset.gpu.argRemaining = 0 ∧ State.reset.gpu.buf = [] ∧
    State.reset.gpu.twMaskX = 0 ∧ State.reset.gpu.twMaskY = 0 ∧ State.reset.gpu.twOffsetX = 0 ∧
    State.reset.gpu.twOffsetY = 0 ∧ State.reset.gpu.flipX = false ∧ State.reset.gpu.flipY = false ∧
    State.reset.gpu.areaLeft = 0 ∧ State.reset.gpu.areaTop = 0 ∧ State.reset.gpu.areaRight = 0 ∧
    State.reset.gpu.areaBottom = 0 ∧ State.reset.gpu.offsetX = 0 ∧ State.reset.gpu.offsetY = 0 ∧
    State.reset.gpu.vramX = 0 ∧ State.reset.gpu.vramY = 0 ∧
    State.reset.messages = [] ∧ State.reset.shutdown = false

/-- From every state whose two register files agree and whose register 0 reads zero, a step that answers a next state
answers one where they agree and register 0 reads zero, whatever instruction, exception or pending load wrote.
(10_state.md section 1 (gpr and out_gpr), 10_state.md section 3 (register zero).) -/
def Obligations.StepKeepsRegistersCommitted : Prop :=
  ∀ s t : State, RegsInv s → step s = .next t → RegsInv t

/-- From every state whose memory is in the canonical form with nothing listed outside RAM, SCRATCH and BIOS, a step
that answers a next state (whatever store or DMA transfer it ran) answers one whose memory is so too. (10_state.md
section 4, 20_memory.md section 4, 50_dma.md section 5.) -/
def Obligations.StepKeepsMemoryCanonical : Prop :=
  ∀ s t : State, MemInv s → step s = .next t → MemInv t

/-- From every state whose seven channel control words hold only stored bits, carry a meaningful sync and are not
active, and whose interrupt register has bits 14:6 and the flags zero and bit 31 equal to bit 15, a step that
answers a next state answers one of which the same holds. The stored-bit positions, the sync without meaning and the
stored low interrupt bits are the spec's decisions D20, D22, D26; that no run stores that sync and that bit 31 is
kept at writes are log 18 and log 15 (log 8). (50_dma.md sections 2 and 3, 50_dma.md section 4.) -/
def Obligations.StepKeepsDmaControllerLegal : Prop :=
  ∀ s t : State, DmaInv s.dma → step s = .next t → DmaInv t.dma

/-- From every state of which they hold, a step that answers a next state keeps: the status bits that nothing changes
after reset, dma_request as the direction and ready bits give it, vram_x even, at most 12 buffered words, and the
parser invariant (ImageLoad only with words to come; a command being assembled has a table row and its buffered
words and words to come add up to argc). The bit positions, the request formula and the halt of an empty image load
are the spec's decisions D29, D31, D33 (log 8); the parser states shut out here have a meaning by log 12. (51_gpu.md
section 1, 51_gpu.md section 2.) -/
def Obligations.StepKeepsGpuLegal : Prop :=
  ∀ s t : State, GpuInv s.gpu → step s = .next t → GpuInv t.gpu

/-- From every state whose cause register holds 0 or a value exception entry writes (codes 4, 5, 8 to 12, with or
without bit 31), a step that answers a next state answers one of which the same holds. The code numbers and the
overwriting of the whole register are the spec's decisions D1, D43 (log 8). (60_exceptions.md section 1, 10_state.md
section 2.) -/
def Obligations.StepKeepsCauseLegal : Prop :=
  ∀ s t : State, s.cause ∈ legalCauses → step s = .next t → t.cause ∈ legalCauses

/-- From every state with memory in its canonical form, a step that answers a next state leaves every BIOS byte as it
was, whatever store, DMA transfer or exception it ran. (20_memory.md section 4 (BIOS), 10_state.md section 4.) -/
def Obligations.BiosNeverChanges : Prop :=
  ∀ s t : State, MemInv s → step s = .next t →
    ∀ a, Config.biosStart ≤ a → a < Config.biosStart + Config.biosSize → t.mem.read a = s.mem.read a

/-- For every step that answers a next state, the messages before it are a prefix of the messages after it: none is
dropped, merged or reordered. The unbounded ordered sequence is the spec's decision D39, and the model's by log 10
(DEDUCED). (52_host.md section 2 (the draw-message output).) -/
def Obligations.MessagesOnlyGrow : Prop :=
  ∀ s t : State, step s = .next t → s.messages <+: t.messages

/-- For every value of the open reset parameters: with an image of another length the machine does not start; with a
full image it starts at the reset vector with byte i of the image at BIOS offset i, RAM and SCRATCH as given, r1 to
r31, hi and lo as given, the write-back array equal to the registers, nothing pending, both flags false, sr, cause
and epc zero, the DMA and GPU registers those of the reset state (ResetMeetsTheInvariant gives their values; the GP0
opcode byte is the model's choice of log 6), no message, shutdown clear, and in the invariant if the given RAM and
SCRATCH are in the canonical form. A byte the given RAM or SCRATCH does not list is what an unlisted address reads
as, the model's choice of log 4. The reset values of the CPU, the interrupt register, the channels and the GPU are
the spec's decisions D14, D26, D28, D35 (log 8). (52_host.md section 1, 10_state.md section 5.) -/
def Obligations.PowerOnNeedsAFullBiosImage : Prop :=
  ∀ p : ResetParams,
    (p.bios.length ≠ 0x80000 → powerOn p = .fault .invalidBios) ∧
    (p.bios.length = 0x80000 → ∃ s, powerOn p = .next s ∧
      s.pc = 0xBFC00000#32 ∧ s.nextPc = 0xBFC00004#32 ∧ s.pending = ⟨0, 0⟩ ∧
      s.branchTaken = false ∧ s.inDelaySlot = false ∧ s.sr = 0 ∧ s.cause = 0 ∧ s.epc = 0 ∧
      s.dma = State.reset.dma ∧ s.gpu = State.reset.gpu ∧ s.messages = [] ∧ s.shutdown = false ∧
      (∀ i, i < 0x80000 → s.mem.read (0x1FC00000 + i) = p.bios.getD i 0) ∧
      (∀ a, a < 0x200000 → s.mem.read a = p.ram.read a) ∧
      (∀ a, 0x1F800000 ≤ a → a < 0x1F800400 → s.mem.read a = p.scratch.read a) ∧
      s.x 0 = 0 ∧ (∀ r, r ≠ 0 → s.x r = p.gpr.get r) ∧ (∀ r, s.out r = s.x r) ∧ s.hi = p.hi ∧ s.lo = p.lo ∧
      (p.ram.wf → p.scratch.wf → s.Inv))

/-- In every state and for every operand, syscall raises SysCall, break raises Break, and cop1, cop3, lwc0, lwc1, lwc3,
swc0, swc1, swc3 raise CopE: the vector by sr[22], the mode stack pushed with bits 31..6 of sr kept, cause written
whole, epc the instruction or (in a delay slot) four below it with cause[31] set, next_pc four past the vector, and
nothing else changed. The code numbers are those the spec takes from general knowledge (D1). Overwriting the whole
of cause is its decision D43 (log 8). (60_exceptions.md section 2 (trap entry), 46_traps.md, 45_coprocessor.md
sections 2 and 3.) -/
def Obligations.TrapsEnterTheHandler : Prop :=
  ∀ s : State,
    (∀ c, ∃ t, exec (.syscall c) s = .next t ∧ EntersException 0x00000020 0x80000020 s t) ∧
    (∀ c, ∃ t, exec (.brk c) s = .next t ∧ EntersException 0x00000024 0x80000024 s t) ∧
    (∀ c, ∃ t, exec (.cop1 c) s = .next t ∧ EntersException 0x0000002C 0x8000002C s t) ∧
    (∀ c, ∃ t, exec (.cop3 c) s = .next t ∧ EntersException 0x0000002C 0x8000002C s t) ∧
    (∀ rt rs imm, ∃ t, exec (.lwc0 rt rs imm) s = .next t ∧ EntersException 0x0000002C 0x8000002C s t) ∧
    (∀ rt rs imm, ∃ t, exec (.lwc1 rt rs imm) s = .next t ∧ EntersException 0x0000002C 0x8000002C s t) ∧
    (∀ rt rs imm, ∃ t, exec (.lwc3 rt rs imm) s = .next t ∧ EntersException 0x0000002C 0x8000002C s t) ∧
    (∀ rt rs imm, ∃ t, exec (.swc0 rt rs imm) s = .next t ∧ EntersException 0x0000002C 0x8000002C s t) ∧
    (∀ rt rs imm, ∃ t, exec (.swc1 rt rs imm) s = .next t ∧ EntersException 0x0000002C 0x8000002C s t) ∧
    (∀ rt rs imm, ∃ t, exec (.swc3 rt rs imm) s = .next t ∧ EntersException 0x0000002C 0x8000002C s t)

/-- In every state rfe answers the next state whose sr[1:0] is the old sr[3:2], sr[3:2] the old sr[5:4], sr[5:4] and
sr[31:6] unchanged, and everything else, the program counters among it, unchanged. (45_coprocessor.md section 1
(rfe), 60_exceptions.md section 3.) -/
def Obligations.RfePopsTheModeStack : Prop :=
  ∀ s : State, ∃ t, exec .rfe s = .next t ∧ t = { s with sr := t.sr } ∧
    field t.sr 0 2 = field s.sr 2 2 ∧ field t.sr 2 2 = field s.sr 4 2 ∧ field t.sr 4 2 = field s.sr 4 2 ∧
    field t.sr 6 26 = field s.sr 6 26

/-- After any exception entry, rfe answers a next state whose sr[3:0] and sr[31:6] are those from before the entry and
whose sr[5:4] is the sr[3:2] from before it. (60_exceptions.md section 3 (return and nesting).) -/
def Obligations.RfeUndoesExceptionEntry : Prop :=
  ∀ (s u : State) (c d : Word), EntersException c d s u →
    ∃ t, exec .rfe u = .next t ∧ field t.sr 0 4 = field s.sr 0 4 ∧ field t.sr 4 2 = field s.sr 2 2 ∧
      field t.sr 6 26 = field s.sr 6 26

/-- In every state mfc0 of register 12, 13 or 14 fills the pending-load slot with sr, cause or epc and changes nothing
else, whatever the mode or the isolate bit; mfc0 of any other register halts Unimplemented (the spec's decisions D3,
D4). (45_coprocessor.md section 1 (mfc0).) -/
def Obligations.Mfc0ReadsThroughThePendingSlot : Prop :=
  ∀ (s : State) (rt : RegIdx),
    (∃ t, exec (.mfc0 rt 12) s = .next t ∧ FillsPending s t rt s.sr) ∧
    (∃ t, exec (.mfc0 rt 13) s = .next t ∧ FillsPending s t rt s.cause) ∧
    (∃ t, exec (.mfc0 rt 14) s = .next t ∧ FillsPending s t rt s.epc) ∧
    ∀ n : RegIdx, n ≠ 12 → n ≠ 13 → n ≠ 14 → exec (.mfc0 rt n) s = .fault (.unimplemented s.messages)

/-- In every state mtc0 to register 12 answers the state with sr the whole of x[rt]; to 3, 5, 6, 7, 9, 11, 13 it changes
nothing; to any other number it halts Unimplemented (the spec's decisions D3, D5). (45_coprocessor.md section 1
(mtc0).) -/
def Obligations.Mtc0WritesOnlyTheStatusRegister : Prop :=
  ∀ (s : State) (rt n : RegIdx),
    exec (.mtc0 rt 12) s = .next { s with sr := s.x rt } ∧
    (n ∈ ([3, 5, 6, 7, 9, 11, 13] : List RegIdx) → exec (.mtc0 rt n) s = .next s) ∧
    (n ∉ ([3, 5, 6, 7, 9, 11, 12, 13] : List RegIdx) → exec (.mtc0 rt n) s = .fault (.unimplemented s.messages))

/-- For every operand and state, cop2, lwc2 and swc2 answer the Unimplemented fault and nothing else, whatever the
isolate bit. (R297, R301, R305.) -/
def Obligations.Coprocessor2Halts : Prop :=
  ∀ s : State, (∀ c, exec (.cop2 c) s = .fault (.unimplemented s.messages)) ∧
    (∀ rt rs imm, exec (.lwc2 rt rs imm) s = .fault (.unimplemented s.messages)) ∧
    ∀ rt rs imm, exec (.swc2 rt rs imm) s = .fault (.unimplemented s.messages)

/-- For every instruction and state whose execution answers a next state: cause and epc are unchanged or the state is an
exception entry; unless the instruction is mtc0, sr[31:6] is unchanged; unless it is mult, multu, div, divu, mthi or
mtlo, hi and lo are unchanged; the input register file is unchanged. (10_state.md sections 1 and 2, 60_exceptions.md
section 2.) -/
def Obligations.WhoWritesTheSpecialRegisters : Prop :=
  ∀ (i : Instr) (s t : State), exec i s = .next t →
    ((t.cause = s.cause ∧ t.epc = s.epc) ∨ ∃ c d, EntersException c d s t) ∧
    ((∀ rt n, i ≠ .mtc0 rt n) → field t.sr 6 26 = field s.sr 6 26) ∧
    ((∀ rs rt, i ≠ .mult rs rt ∧ i ≠ .multu rs rt ∧ i ≠ .div rs rt ∧ i ≠ .divu rs rt) →
      (∀ rs, i ≠ .mthi rs ∧ i ≠ .mtlo rs) → t.hi = s.hi ∧ t.lo = s.lo) ∧
    t.gpr = s.gpr

/-- For add, addi and sub in every state: if the exact signed result lies in -2^31..2^31-1 the destination, and nothing
else, receives a word of that signed value; otherwise Overflow is entered and no register is written (the spec's
decision D44). The immediate is sign-extended. The code number is its D1 (log 8). (41_alu_register.md section 2,
42_alu_immediate.md, 41_alu_register.md section 1.) -/
def Obligations.SignedArithmeticTrapsOnOverflow : Prop :=
  ∀ (s : State) (rd rt rs : RegIdx) (imm : BitVec 16),
    let sum := (s.x rs).toInt + (s.x rt).toInt
    let diff := (s.x rs).toInt - (s.x rt).toInt
    let sumImm := (s.x rs).toInt + imm.toInt
    (-2 ^ 31 ≤ sum ∧ sum < 2 ^ 31 → ∃ t v, exec (.add rd rs rt) s = .next t ∧ WritesReg s t rd v ∧ v.toInt = sum) ∧
    (-2 ^ 31 ≤ diff ∧ diff < 2 ^ 31 → ∃ t v, exec (.sub rd rs rt) s = .next t ∧ WritesReg s t rd v ∧ v.toInt = diff) ∧
    (-2 ^ 31 ≤ sumImm ∧ sumImm < 2 ^ 31 →
      ∃ t v, exec (.addi rt rs imm) s = .next t ∧ WritesReg s t rt v ∧ v.toInt = sumImm) ∧
    (¬(-2 ^ 31 ≤ sum ∧ sum < 2 ^ 31) →
      ∃ t, exec (.add rd rs rt) s = .next t ∧ EntersException 0x00000030 0x80000030 s t) ∧
    (¬(-2 ^ 31 ≤ diff ∧ diff < 2 ^ 31) →
      ∃ t, exec (.sub rd rs rt) s = .next t ∧ EntersException 0x00000030 0x80000030 s t) ∧
    (¬(-2 ^ 31 ≤ sumImm ∧ sumImm < 2 ^ 31) →
      ∃ t, exec (.addi rt rs imm) s = .next t ∧ EntersException 0x00000030 0x80000030 s t)

/-- For all words a and b, the exact sum overflows exactly when a and b have equal sign bits and the wrapped sum's
differs from a's; the exact difference overflows exactly when the sign bits differ and the wrapped difference's
differs from a's. (41_alu_register.md section 1 (signed overflow).) -/
def Obligations.OverflowIsTheSignBitTest : Prop :=
  ∀ a b : Word,
    addOverflows a b = (a.getLsbD 31 == b.getLsbD 31 && (a + b).getLsbD 31 != a.getLsbD 31) ∧
    subOverflows a b = (a.getLsbD 31 != b.getLsbD 31 && (a - b).getLsbD 31 != a.getLsbD 31)

/-- For addu, subu and addiu in every state, the destination, and nothing else, receives the sum or difference modulo
2^32; the immediate of addiu is sign-extended (the spec marks that as general knowledge). The passage is G5 (log 8).
(41_alu_register.md section 2, 42_alu_immediate.md.) -/
def Obligations.WrappingArithmetic : Prop :=
  ∀ (s : State) (rd rt rs : RegIdx) (imm : BitVec 16),
    (∃ t v, exec (.addu rd rs rt) s = .next t ∧ WritesReg s t rd v ∧
      v.toNat = ((s.x rs).toNat + (s.x rt).toNat) % 2 ^ 32) ∧
    (∃ t v, exec (.subu rd rs rt) s = .next t ∧ WritesReg s t rd v ∧
      v.toNat = ((s.x rs).toNat + (2 ^ 32 - (s.x rt).toNat)) % 2 ^ 32) ∧
    (∃ t v, exec (.addiu rt rs imm) s = .next t ∧ WritesReg s t rt v ∧
      (v.toNat : Int) = ((s.x rs).toNat + imm.toInt) % 2 ^ 32)

/-- For every state and bit: and, or, xor and nor write the bitwise result to rd; andi, ori and xori use the immediate
with bits 31..16 zero and write rt; lui writes the immediate to bits 31..16 and zeros below; nothing else changes.
What the mnemonics mean and which immediates extend with zeros is the spec's general-knowledge passage G5 (log 8).
(41_alu_register.md section 3, 42_alu_immediate.md.) -/
def Obligations.LogicIsBitwise : Prop :=
  ∀ (s : State) (rd rt rs : RegIdx) (imm : BitVec 16),
    (∃ t v, exec (.and rd rs rt) s = .next t ∧ WritesReg s t rd v ∧
      ∀ k < 32, v.getLsbD k = ((s.x rs).getLsbD k && (s.x rt).getLsbD k)) ∧
    (∃ t v, exec (.or rd rs rt) s = .next t ∧ WritesReg s t rd v ∧
      ∀ k < 32, v.getLsbD k = ((s.x rs).getLsbD k || (s.x rt).getLsbD k)) ∧
    (∃ t v, exec (.xor rd rs rt) s = .next t ∧ WritesReg s t rd v ∧
      ∀ k < 32, v.getLsbD k = ((s.x rs).getLsbD k != (s.x rt).getLsbD k)) ∧
    (∃ t v, exec (.nor rd rs rt) s = .next t ∧ WritesReg s t rd v ∧
      ∀ k < 32, v.getLsbD k = !((s.x rs).getLsbD k || (s.x rt).getLsbD k)) ∧
    (∃ t v, exec (.andi rt rs imm) s = .next t ∧ WritesReg s t rt v ∧
      ∀ k < 32, v.getLsbD k = (decide (k < 16) && (s.x rs).getLsbD k && imm.getLsbD k)) ∧
    (∃ t v, exec (.ori rt rs imm) s = .next t ∧ WritesReg s t rt v ∧
      ∀ k < 32, v.getLsbD k = ((s.x rs).getLsbD k || (decide (k < 16) && imm.getLsbD k))) ∧
    (∃ t v, exec (.xori rt rs imm) s = .next t ∧ WritesReg s t rt v ∧
      ∀ k < 32, v.getLsbD k = ((s.x rs).getLsbD k != (decide (k < 16) && imm.getLsbD k))) ∧
    (∃ t v, exec (.lui rt imm) s = .next t ∧ WritesReg s t rt v ∧
      ∀ k < 32, v.getLsbD k = (decide (16 ≤ k) && imm.getLsbD (k - 16)))

/-- In every state slt and slti write 1 if the signed comparison holds and 0 otherwise; sltu and sltiu compare as
unsigned integers, sltiu against the immediate sign-extended to 32 bits; the destination is the one change. The
formulas of slt and sltu are the spec's general-knowledge passage G5 (log 8). (41_alu_register.md section 4 (slt,
sltu), 42_alu_immediate.md (slti, sltiu).) -/
def Obligations.SetOnLessThan : Prop :=
  ∀ (s : State) (rd rt rs : RegIdx) (imm : BitVec 16),
    (∃ t, exec (.slt rd rs rt) s = .next t ∧
      WritesReg s t rd (if (s.x rs).toInt < (s.x rt).toInt then 1 else 0)) ∧
    (∃ t, exec (.sltu rd rs rt) s = .next t ∧
      WritesReg s t rd (if (s.x rs).toNat < (s.x rt).toNat then 1 else 0)) ∧
    (∃ t, exec (.slti rt rs imm) s = .next t ∧
      WritesReg s t rt (if (s.x rs).toInt < imm.toInt then 1 else 0)) ∧
    (∃ t, exec (.sltiu rt rs imm) s = .next t ∧
      WritesReg s t rt (if ((s.x rs).toNat : Int) < imm.toInt % 2 ^ 32 then 1 else 0))

/-- In every state sll and sllv write x[rt] times 2^n modulo 2^32, srl and srlv the unsigned quotient by 2^n, sra and
srav the signed quotient rounded down, where n is shamt or x[rs] modulo 32 (the spec's decision D11); the
destination is the one change. What the mnemonics mean is its general-knowledge passage G5 (log 8).
(41_alu_register.md section 5, 30_encoding.md section 3.) -/
def Obligations.ShiftsMultiplyAndDivide : Prop :=
  ∀ (s : State) (rd rt rs : RegIdx) (h : BitVec 5),
    let n := h.toNat
    let m := (s.x rs).toNat % 32
    (∃ t v, exec (.sll rd rt h) s = .next t ∧ WritesReg s t rd v ∧ v.toNat = (s.x rt).toNat * 2 ^ n % 2 ^ 32) ∧
    (∃ t v, exec (.srl rd rt h) s = .next t ∧ WritesReg s t rd v ∧ v.toNat = (s.x rt).toNat / 2 ^ n) ∧
    (∃ t v, exec (.sra rd rt h) s = .next t ∧ WritesReg s t rd v ∧ v.toInt = (s.x rt).toInt / 2 ^ n) ∧
    (∃ t v, exec (.sllv rd rt rs) s = .next t ∧ WritesReg s t rd v ∧ v.toNat = (s.x rt).toNat * 2 ^ m % 2 ^ 32) ∧
    (∃ t v, exec (.srlv rd rt rs) s = .next t ∧ WritesReg s t rd v ∧ v.toNat = (s.x rt).toNat / 2 ^ m) ∧
    (∃ t v, exec (.srav rd rt rs) s = .next t ∧ WritesReg s t rd v ∧ v.toInt = (s.x rt).toInt / 2 ^ m)

/-- In every state, after mult the 64-bit word hi:lo has the exact signed product as its signed value, after multu the
exact unsigned product as its unsigned value; nothing else changes. Which half goes where is the spec's general-
knowledge passage G14. (43_muldiv.md (mult, multu).) -/
def Obligations.MultiplyGivesTheExactProduct : Prop :=
  ∀ (s : State) (rs rt : RegIdx),
    (∃ t hi lo, exec (.mult rs rt) s = .next t ∧ WritesHiLo s t hi lo ∧
      (hi ++ lo).toInt = (s.x rs).toInt * (s.x rt).toInt) ∧
    (∃ t hi lo, exec (.multu rs rt) s = .next t ∧ WritesHiLo s t hi lo ∧
      (hi ++ lo).toNat = (s.x rs).toNat * (s.x rt).toNat)

/-- In every state, with n = x[rs] and d = x[rt]: div with d = 0 gives hi = n and lo = 0xFFFFFFFF or 1 by the sign of n;
0x80000000 by -1 gives hi = 0, lo = 0x80000000; otherwise n = lo*d + hi with |hi| < |d| and hi zero or of the sign
of n, all signed. divu with d = 0 gives hi = n, lo = 0xFFFFFFFF; otherwise n = lo*d + hi with hi < d, unsigned.
Nothing else changes. Truncation toward zero is the spec's general-knowledge passage G14. (43_muldiv.md (div,
divu).) -/
def Obligations.DivisionGivesQuotientAndRemainder : Prop :=
  ∀ (s : State) (rs rt : RegIdx),
    let n := s.x rs
    let d := s.x rt
    (∃ t hi lo, exec (.div rs rt) s = .next t ∧ WritesHiLo s t hi lo ∧
      (d = 0 → hi = n ∧ lo = if 0 ≤ n.toInt then 0xFFFFFFFF#32 else 0x00000001#32) ∧
      (n = 0x80000000#32 → d = 0xFFFFFFFF#32 → hi = 0 ∧ lo = 0x80000000#32) ∧
      (d ≠ 0 → ¬(n = 0x80000000#32 ∧ d = 0xFFFFFFFF#32) →
        n.toInt = lo.toInt * d.toInt + hi.toInt ∧ |hi.toInt| < |d.toInt| ∧
          (0 ≤ n.toInt → 0 ≤ hi.toInt) ∧ (n.toInt ≤ 0 → hi.toInt ≤ 0))) ∧
    (∃ t hi lo, exec (.divu rs rt) s = .next t ∧ WritesHiLo s t hi lo ∧
      (d = 0 → hi = n ∧ lo = 0xFFFFFFFF#32) ∧
      (d ≠ 0 → n.toNat = lo.toNat * d.toNat + hi.toNat ∧ hi.toNat < d.toNat))

/-- In every state mfhi and mflo write hi and lo to rd through the write-back array and not the pending slot; mthi
writes x[rs] to hi and keeps lo; mtlo writes x[rs] to lo and keeps hi; nothing else changes. The directions of the
four moves are the spec's general-knowledge passage G14 (log 8). (43_muldiv.md (mfhi, mthi, mflo, mtlo).) -/
def Obligations.HiLoMoves : Prop :=
  ∀ (s : State) (r : RegIdx),
    (∃ t, exec (.mfhi r) s = .next t ∧ WritesReg s t r s.hi) ∧
    (∃ t, exec (.mflo r) s = .next t ∧ WritesReg s t r s.lo) ∧
    (∃ t, exec (.mthi r) s = .next t ∧ WritesHiLo s t (s.x r) s.lo) ∧
    (∃ t, exec (.mtlo r) s = .next t ∧ WritesHiLo s t s.hi (s.x r))

/-- In every state beq, bne, blez, bgtz, bltz, bgez with their condition true change only next_pc, to the delay slot's
address plus four times the signed immediate, and set branch_taken; with the condition false they change nothing
(the spec's decision D13). The comparisons of blez, bgtz, bltz and bgez are its general knowledge
(44_branches_jumps.md section 2, G15; log 8). (44_branches_jumps.md section 2, 44_branches_jumps.md section 1.) -/
def Obligations.ConditionalBranches : Prop :=
  ∀ (s : State) (rs rt : RegIdx) (sel : BitVec 4) (imm : BitVec 16),
    let target := s.pc + BitVec.ofInt 32 (4 * imm.toInt)
    let a := s.x rs
    let b := s.x rt
    (∃ t, exec (.beq rs rt imm) s = .next t ∧ (a = b → TakesBranch s t target) ∧ (a ≠ b → t = s)) ∧
    (∃ t, exec (.bne rs rt imm) s = .next t ∧ (a ≠ b → TakesBranch s t target) ∧ (a = b → t = s)) ∧
    (∃ t, exec (.blez rs imm) s = .next t ∧ (a.toInt ≤ 0 → TakesBranch s t target) ∧ (0 < a.toInt → t = s)) ∧
    (∃ t, exec (.bgtz rs imm) s = .next t ∧ (0 < a.toInt → TakesBranch s t target) ∧ (a.toInt ≤ 0 → t = s)) ∧
    (∃ t, exec (.bltz rs sel imm) s = .next t ∧ (a.toInt < 0 → TakesBranch s t target) ∧ (0 ≤ a.toInt → t = s)) ∧
    (∃ t, exec (.bgez rs sel imm) s = .next t ∧ (0 ≤ a.toInt → TakesBranch s t target) ∧ (a.toInt < 0 → t = s))

/-- In every state bltzal and bgezal write the current next_pc to r31 whether or not the branch is taken (the spec's
decision D12), test rs as read before the link, and when taken set next_pc to the delay slot's address plus four
times the signed immediate and branch_taken; nothing else changes. (44_branches_jumps.md section 2 (bltzal,
bgezal).) -/
def Obligations.LinkingBranches : Prop :=
  ∀ (s : State) (rs : RegIdx) (imm : BitVec 16),
    let target := s.pc + BitVec.ofInt 32 (4 * imm.toInt)
    ∃ linked, WritesReg s linked 31 s.nextPc ∧
      (∃ t, exec (.bltzal rs imm) s = .next t ∧ ((s.x rs).toInt < 0 → TakesBranch linked t target) ∧
        (0 ≤ (s.x rs).toInt → t = linked)) ∧
      (∃ t, exec (.bgezal rs imm) s = .next t ∧ (0 ≤ (s.x rs).toInt → TakesBranch linked t target) ∧
        ((s.x rs).toInt < 0 → t = linked))

/-- In every state j and jal go to the word whose top four bits are those of pc (the delay slot's address), whose next
26 are the target field and whose low two are zero; jr and jalr go to x[rs] untested, jalr reading it before the
link; jal links the current next_pc to r31 and jalr to rd; branch_taken is set; nothing else changes. That jalr
links through rd is the spec's general-knowledge passage G1. (44_branches_jumps.md section 3, 44_branches_jumps.md
section 1.) -/
def Obligations.JumpsSetTheNextPc : Prop :=
  ∀ (s : State) (rd rs : RegIdx) (target : BitVec 26),
    let goal : Word := field s.pc 28 4 ++ target ++ 0#2
    (∃ t, exec (.j target) s = .next t ∧ TakesBranch s t goal) ∧
    (∃ linked t, exec (.jal target) s = .next t ∧ WritesReg s linked 31 s.nextPc ∧ TakesBranch linked t goal) ∧
    (∃ t, exec (.jr rs) s = .next t ∧ TakesBranch s t (s.x rs)) ∧
    (∃ linked t, exec (.jalr rd rs) s = .next t ∧ WritesReg s linked rd s.nextPc ∧ TakesBranch linked t (s.x rs))

/-- In every state with sr[16] = 1, for every operand, each of the twelve load and store instructions answers the same
state: no access, no alignment exception, no pending load (the spec's decision D9). (40_loads_stores.md section 1
(isolate-cache gate), 20_memory.md section 6.) -/
def Obligations.IsolatedCacheDropsEveryAccess : Prop :=
  ∀ (s : State) (rt rs : RegIdx) (imm : BitVec 16), s.sr.getLsbD 16 = true →
    ∀ i ∈ [Instr.lb rt rs imm, .lbu rt rs imm, .lh rt rs imm, .lhu rt rs imm, .lw rt rs imm, .lwl rt rs imm,
        .lwr rt rs imm, .sb rt rs imm, .sh rt rs imm, .sw rt rs imm, .swl rt rs imm, .swr rt rs imm],
      exec i s = .next s

/-- In every state with sr[16] = 0: lh and lhu of an odd address and lw of an address that is no multiple of 4 enter
LoadAddr; sh of an odd address and sw of an address that is no multiple of 4 enter StoreAddr; whether or not the
address exists, with no access made and nothing pending. The code numbers and the order of the tests are the spec's
decisions D1, D50 (log 8). (40_loads_stores.md sections 2 and 3, 20_memory.md section 5, 60_exceptions.md section
4.) -/
def Obligations.MisalignedAccessRaises : Prop :=
  ∀ (s : State) (rt rs : RegIdx) (imm : BitVec 16), s.sr.getLsbD 16 = false →
    let a := (s.x rs + imm.signExtend 32).toNat
    (a % 2 ≠ 0 → ∃ t, exec (.lh rt rs imm) s = .next t ∧ EntersException 0x00000010 0x80000010 s t) ∧
    (a % 2 ≠ 0 → ∃ t, exec (.lhu rt rs imm) s = .next t ∧ EntersException 0x00000010 0x80000010 s t) ∧
    (a % 4 ≠ 0 → ∃ t, exec (.lw rt rs imm) s = .next t ∧ EntersException 0x00000010 0x80000010 s t) ∧
    (a % 2 ≠ 0 → ∃ t, exec (.sh rt rs imm) s = .next t ∧ EntersException 0x00000014 0x80000014 s t) ∧
    (a % 4 ≠ 0 → ∃ t, exec (.sw rt rs imm) s = .next t ∧ EntersException 0x00000014 0x80000014 s t)

/-- In every state with sr[16] = 0, where the address is aligned for the access and the bus load at it answers v: lb and
lh fill the pending slot with the low byte or halfword of v sign-extended, lbu and lhu zero-extended, lw with v. No
register, no memory, nothing else changes, whatever region answered. Which mnemonics extend by sign is the spec's
general-knowledge passage. (40_loads_stores.md section 2, 40_loads_stores.md section 1.) -/
def Obligations.LoadsFillThePendingSlot : Prop :=
  ∀ (s : State) (rt rs : RegIdx) (imm : BitVec 16) (v : Word), s.sr.getLsbD 16 = false →
    let a := effAddr s rs imm
    (memRead a .byte s = .next v → ∃ t, exec (.lb rt rs imm) s = .next t ∧
      FillsPending s t rt ((field v 0 8).signExtend 32)) ∧
    (memRead a .byte s = .next v → ∃ t, exec (.lbu rt rs imm) s = .next t ∧
      FillsPending s t rt ((field v 0 8).setWidth 32)) ∧
    (a.toNat % 2 = 0 → memRead a .half s = .next v → ∃ t, exec (.lh rt rs imm) s = .next t ∧
      FillsPending s t rt ((field v 0 16).signExtend 32)) ∧
    (a.toNat % 2 = 0 → memRead a .half s = .next v → ∃ t, exec (.lhu rt rs imm) s = .next t ∧
      FillsPending s t rt ((field v 0 16).setWidth 32)) ∧
    (a.toNat % 4 = 0 → memRead a .word s = .next v → ∃ t, exec (.lw rt rs imm) s = .next t ∧
      FillsPending s t rt v)

/-- In every state with sr[16] = 0, where the bus load of the aligned word answers w, with k the low two bits of the
address: lwl fills the pending slot with a value whose top k+1 bytes are the low k+1 bytes of w and whose other
bytes are those of out_gpr[rt]; lwr with one whose low 4-k bytes are the high 4-k bytes of w and whose other bytes
are those of out_gpr[rt]. Nothing else changes. The merge patterns are the spec's general-knowledge passage G6, the
merge operand its decision D10. (40_loads_stores.md section 2 (lwl, lwr).) -/
def Obligations.UnalignedLoadsMergeBytes : Prop :=
  ∀ (s : State) (rt rs : RegIdx) (imm : BitVec 16) (w : Word), s.sr.getLsbD 16 = false →
    let a := effAddr s rs imm
    let k := a.toNat % 4
    memRead (alignWord a) .word s = .next w →
    (∃ t v, exec (.lwl rt rs imm) s = .next t ∧ FillsPending s t rt v ∧
      ∀ j < 4, byteOf v j = if 3 ≤ j + k then byteOf w (j + k - 3) else byteOf (s.out rt) j) ∧
    (∃ t v, exec (.lwr rt rs imm) s = .next t ∧ FillsPending s t rt v ∧
      ∀ j < 4, byteOf v j = if j + k < 4 then byteOf w (j + k) else byteOf (s.out rt) j)

/-- In every state with sr[16] = 0 and memory in the canonical form, where the address is aligned for the store and lies
in RAM: the store writes byte k of x[rt] k bytes above the physical address, for the width's bytes, and every byte
outside them and every other part of the state is unchanged. (40_loads_stores.md section 3, 20_memory.md section 4
(RAM).) -/
def Obligations.StoresWriteRam : Prop :=
  ∀ (s : State) (rt rs : RegIdx) (imm : BitVec 16), s.sr.getLsbD 16 = false → s.mem.wf →
    let a := effAddr s rs imm
    InRam a →
    (∃ t, exec (.sb rt rs imm) s = .next t ∧ StoresTo s t (physical a).toNat .byte (s.x rt)) ∧
    (a.toNat % 2 = 0 → ∃ t, exec (.sh rt rs imm) s = .next t ∧ StoresTo s t (physical a).toNat .half (s.x rt)) ∧
    (a.toNat % 4 = 0 → ∃ t, exec (.sw rt rs imm) s = .next t ∧ StoresTo s t (physical a).toNat .word (s.x rt))

/-- In every state with sr[16] = 0 and memory in the canonical form, where the address lies in RAM, with k its low two
bits and p the physical address of its aligned word: after swl bytes p..p+k hold the top k+1 bytes of x[rt]; after
swr bytes p+k..p+3 hold the low 4-k bytes of x[rt]; every other byte of memory and every other part of the state is
unchanged. The patterns are the spec's general-knowledge passage G6. (40_loads_stores.md section 3 (swl, swr).) -/
def Obligations.UnalignedStoresWriteRam : Prop :=
  ∀ (s : State) (rt rs : RegIdx) (imm : BitVec 16), s.sr.getLsbD 16 = false → s.mem.wf →
    let a := effAddr s rs imm
    let k := a.toNat % 4
    let p := (physical (alignWord a)).toNat
    InRam a →
    (∃ t, exec (.swl rt rs imm) s = .next t ∧ t = { s with mem := t.mem } ∧
      ∀ q, t.mem.read q = if p ≤ q ∧ q ≤ p + k then byteOf (s.x rt) (q - p + 3 - k) else s.mem.read q) ∧
    (∃ t, exec (.swr rt rs imm) s = .next t ∧ t = { s with mem := t.mem } ∧
      ∀ q, t.mem.read q = if p + k ≤ q ∧ q < p + 4 then byteOf (s.x rt) (q - p - k) else s.mem.read q)

/-- For sb, sh, sw, swl and swr in every state with sr[16] = 0 whose address is aligned for the store: the store is the
bus write of x[rt] (for swl and swr the bus read of the aligned word and the bus write there of a word whose byte j,
with k the low two bits of the address, is byte j + 3 - k of x[rt] for j up to k, for swr byte j - k for j from k
up, and the read word's byte j otherwise), and if it answers a next state then registers, pending load, program
counters, flags and coprocessor-0 registers are unchanged. So stated, it also says what swl and swr to a device do.
The merge patterns are the spec's general-knowledge passage G6 (log 8). (40_loads_stores.md section 3 (sb, sh, sw,
swl, swr), 20_memory.md section 5 (side effects), 00_scope.md section 3, 60_exceptions.md section 2.) -/
def Obligations.StoresKeepTheCpu : Prop :=
  ∀ (s : State) (rt rs : RegIdx) (imm : BitVec 16), s.sr.getLsbD 16 = false →
    let a := effAddr s rs imm
    let k := a.toNat % 4
    exec (.sb rt rs imm) s = memWrite a .byte (s.x rt) s ∧
    (a.toNat % 2 = 0 → exec (.sh rt rs imm) s = memWrite a .half (s.x rt) s) ∧
    (a.toNat % 4 = 0 → exec (.sw rt rs imm) s = memWrite a .word (s.x rt) s) ∧
    (∀ n v t, memWrite a n v s = .next t → KeepsCpu s t) ∧
    (∃ merge : Word → Word,
      (∀ m, ∀ j < 4, byteOf (merge m) j = if j ≤ k then byteOf (s.x rt) (j + 3 - k) else byteOf m j) ∧
      exec (.swl rt rs imm) s =
        andThen (memRead (alignWord a) .word s) fun m => memWrite (alignWord a) .word (merge m) s) ∧
    (∃ merge : Word → Word,
      (∀ m, ∀ j < 4, byteOf (merge m) j = if k ≤ j then byteOf (s.x rt) (j - k) else byteOf m j) ∧
      exec (.swr rt rs imm) s =
        andThen (memRead (alignWord a) .word s) fun m => memWrite (alignWord a) .word (merge m) s) ∧
    (∀ t, exec (.swl rt rs imm) s = .next t → KeepsCpu s t) ∧
    (∀ t, exec (.swr rt rs imm) s = .next t → KeepsCpu s t)

/-- For a state with sr[16] = 0 that runs lwr rt, imm(rs) at address a and then runs lwl rt, imm'(rs) at address a + 3,
with both aligned words in RAM: the second step answers a next state whose pending load is for rt and whose byte j
is the memory byte at a + j, for j = 0..3, whatever rt held before. The merge operand and the merge patterns are the
spec's decision D10 and general-knowledge passage G6 (log 8). (40_loads_stores.md section 4 (the unaligned-word
idiom).) -/
def Obligations.UnalignedPairLoadsTheWord : Prop :=
  ∀ (s t : State) (rt rs : RegIdx) (imm imm' : BitVec 16),
    Runs s (.lwr rt rs imm) → s.sr.getLsbD 16 = false → step s = .next t → Runs t (.lwl rt rs imm') →
    effAddr t rs imm' = effAddr s rs imm + 3 → InRam (effAddr s rs imm) → InRam (effAddr s rs imm + 3) →
    ∃ u, step t = .next u ∧ u.pending.reg = rt ∧
      ∀ j, j < 4 → byteOf u.pending.value j =
        s.mem.read (physical (effAddr s rs imm + BitVec.ofNat 32 j)).toNat

/-- For a state with sr[16] = 0 and memory in the canonical form whose execution of swr rt, imm(rs) at address a, and
then of swl rt, imm'(rs) at address a + 3 in the state it leaves, both in RAM: both answer next states; afterwards
the byte at a + j is byte j of x[rt] for j = 0..3, every other byte of memory is unchanged, and nothing but memory
changed. The merge patterns are the spec's general-knowledge passage G6 (log 8). (40_loads_stores.md section 4 (the
unaligned-word idiom).) -/
def Obligations.UnalignedPairStoresTheWord : Prop :=
  ∀ (s : State) (rt rs : RegIdx) (imm imm' : BitVec 16),
    s.sr.getLsbD 16 = false → s.mem.wf → effAddr s rs imm' = effAddr s rs imm + 3 →
    InRam (effAddr s rs imm) → InRam (effAddr s rs imm + 3) →
    ∃ t u, exec (.swr rt rs imm) s = .next t ∧ exec (.swl rt rs imm') t = .next u ∧ u = { s with mem := u.mem } ∧
      (∀ j, j < 4 →
        u.mem.read (physical (effAddr s rs imm + BitVec.ofNat 32 j)).toNat = byteOf (s.x rt) j) ∧
      ∀ q, (∀ j, j < 4 → q ≠ (physical (effAddr s rs imm + BitVec.ofNat 32 j)).toNat) →
        u.mem.read q = s.mem.read q

/-- For every virtual address: below 0x80000000 and from 0xC0000000 up it is its own physical address; from 0x80000000
to 0x9FFFFFFF the physical address is 0x80000000 less; from 0xA0000000 to 0xBFFFFFFF it is the low 29 bits. (R71.) -/
def Obligations.SegmentsTranslateByMask : Prop :=
  ∀ va : Word,
    (va.toNat < 0x80000000 → physical va = va) ∧
    (0x80000000 ≤ va.toNat → va.toNat < 0xA0000000 → (physical va).toNat = va.toNat - 0x80000000) ∧
    (0xA0000000 ≤ va.toNat → va.toNat < 0xC0000000 → (physical va).toNat = va.toNat - 0xA0000000) ∧
    (0xC0000000 ≤ va.toNat → physical va = va)

/-- For every state, width and virtual address, by its physical address p: RAM and BIOS answer the width's bytes little-
endian with zeros above; EXP1 answers 0xFF; IRQ_CNT, TIMERS and SPU answer 0; at width word the GPU answers 0 at GP0
and the status word at GP1, and DMA is DmaRead of the offset; an 8- or 16-bit load from DMA or GPU halts BadWidth;
SCRATCH, MEMC, RAM_SZ, EXP2, CACHEC and the addresses of no region halt OutOfRange. The widths of the placeholder
regions and the SCRATCH rule are the spec's decisions D16 to D19. A misaligned access that runs past the end of RAM
or BIOS, which no instruction makes, reads on byte by byte by the model's choice of log 14 (region by the first
byte, D46). (20_memory.md section 3, 20_memory.md section 4.) -/
def Obligations.BusLoadsByRegion : Prop :=
  ∀ (s : State) (va : Word) (n : Width),
    let p := (physical va).toNat
    (p < 0x200000 ∨ (0x1FC00000 ≤ p ∧ p < 0x1FC80000) →
      ∃ v, memRead va n s = .next v ∧ (∀ k, k < n.bytes → byteOf v k = s.mem.read (p + k)) ∧
        v.toNat < 256 ^ n.bytes) ∧
    (0x1F000000 ≤ p → p < 0x1F800000 → memRead va n s = .next 0xFF) ∧
    ((0x1F801070 ≤ p ∧ p < 0x1F801078) ∨ (0x1F801100 ≤ p ∧ p < 0x1F801130) ∨ (0x1F801C00 ≤ p ∧ p < 0x1F801E80) →
      memRead va n s = .next 0) ∧
    (p = 0x1F801810 → memRead va .word s = .next 0) ∧
    (p = 0x1F801814 → memRead va .word s = .next s.gpu.status) ∧
    (0x1F801080 ≤ p → p < 0x1F801100 → memRead va .word s = dmaRead (p - 0x1F801080) s) ∧
    ((0x1F801080 ≤ p ∧ p < 0x1F801100) ∨ (0x1F801810 ≤ p ∧ p < 0x1F801818) → n ≠ .word →
      memRead va n s = .fault (.badWidth s.messages)) ∧
    ((0x200000 ≤ p ∧ p < 0x1F000000) ∨ (0x1F800000 ≤ p ∧ p < 0x1F801070) ∨ (0x1F801078 ≤ p ∧ p < 0x1F801080) ∨
        (0x1F801130 ≤ p ∧ p < 0x1F801810) ∨ (0x1F801818 ≤ p ∧ p < 0x1F801C00) ∨
        (0x1F801E80 ≤ p ∧ p < 0x1FC00000) ∨ 0x1FC80000 ≤ p →
      memRead va n s = .fault (.outOfRange s.messages))

/-- For every state, width, value and virtual address, by its physical address p: the ignored regions (MEMC, RAM_SZ,
IRQ_CNT, TIMERS, SPU, EXP2, CACHEC) change nothing; a store into RAM writes the low bytes of the value and nothing
else; at width word GP0 is Gp0Exec, GP1 is Gp1Exec and DMA is DmaWrite of the offset; an 8- or 16-bit store to DMA
or GPU halts BadWidth; EXP1, SCRATCH, BIOS and the addresses of no region halt OutOfRange. SCRATCH, the placeholder
widths, EXP1 and the halt's kind are the spec's decisions D16 to D19 (log 8). A misaligned store past the end of
RAM, which no instruction makes, writes on byte by byte by the model's choice of log 14 (region by the first byte,
D46). (20_memory.md section 3, 20_memory.md section 4.) -/
def Obligations.BusStoresByRegion : Prop :=
  ∀ (s : State) (va : Word) (n : Width) (v : Word),
    let p := (physical va).toNat
    (p < 0x200000 → s.mem.wf → ∃ t, memWrite va n v s = .next t ∧ StoresTo s t p n v) ∧
    ((0x1F801000 ≤ p ∧ p < 0x1F801024) ∨ (0x1F801060 ≤ p ∧ p < 0x1F801064) ∨ (0x1F801070 ≤ p ∧ p < 0x1F801078) ∨
        (0x1F801100 ≤ p ∧ p < 0x1F801130) ∨ (0x1F801C00 ≤ p ∧ p < 0x1F801E80) ∨
        (0x1F802000 ≤ p ∧ p < 0x1F802042) ∨ (0xFFFE0130 ≤ p ∧ p < 0xFFFE0134) →
      memWrite va n v s = .next s) ∧
    (p = 0x1F801810 → memWrite va .word v s = gp0Exec v s) ∧
    (p = 0x1F801814 → memWrite va .word v s = gp1Exec v s) ∧
    (0x1F801080 ≤ p → p < 0x1F801100 → memWrite va .word v s = dmaWrite (p - 0x1F801080) v s) ∧
    ((0x1F801080 ≤ p ∧ p < 0x1F801100) ∨ (0x1F801810 ≤ p ∧ p < 0x1F801818) → n ≠ .word →
      memWrite va n v s = .fault (.badWidth s.messages)) ∧
    ((0x200000 ≤ p ∧ p < 0x1F801000) ∨ (0x1F801024 ≤ p ∧ p < 0x1F801060) ∨ (0x1F801064 ≤ p ∧ p < 0x1F801070) ∨
        (0x1F801078 ≤ p ∧ p < 0x1F801080) ∨ (0x1F801130 ≤ p ∧ p < 0x1F801810) ∨
        (0x1F801818 ≤ p ∧ p < 0x1F801C00) ∨ (0x1F801E80 ≤ p ∧ p < 0x1F802000) ∨
        (0x1F802042 ≤ p ∧ p < 0xFFFE0130) ∨ 0xFFFE0134 ≤ p →
      memWrite va n v s = .fault (.outOfRange s.messages))

/-- For every state with memory in the canonical form, every width, value and RAM address: the bus store answers a next
state, and a bus load of that width at that address in it answers the low bytes of the value with zeros above. The
spec's law is of aligned addresses; that it holds of the others, the last bytes of RAM among them, is the model's
choice of log 14 (with D46), and the memory model is the spec's decision D41 (log 8). (20_memory.md section 4 (RAM),
20_memory.md section 7.) -/
def Obligations.RamStoreThenLoad : Prop :=
  ∀ (s : State) (va : Word) (n : Width) (v : Word), s.mem.wf → InRam va →
    ∃ t, memWrite va n v s = .next t ∧
      ∃ r, memRead va n t = .next r ∧ r.toNat = v.toNat % 256 ^ n.bytes

/-- For every state and channel n: a write to base reads back its low 24 bits, to block_control all 32, to the
controller's control all 32; a write to a channel's control with a meaningful sync that does not make the channel
active reads back the 17 stored bits; each changes that one register only; sync = 3 halts Unimplemented; the offsets
without a register halt OutOfRange on load and on store. The bit positions, the halt of sync 3, the plain controller
control and the 17-bit read-back are the spec's decisions D20, D22, D27, D52 (log 8). (50_dma.md section 4,
50_dma.md section 2, 50_dma.md section 3.) -/
def Obligations.DmaRegistersReadBack : Prop :=
  ∀ (s : State) (n : Fin 7) (v : Word),
    (∃ t, dmaWrite (16 * n.val) v s = .next t ∧ dmaRead (16 * n.val) t = .next (v &&& 0x00FFFFFF#32) ∧
      t = s.setChannel n { s.channel n with base := (t.channel n).base }) ∧
    (∃ t, dmaWrite (16 * n.val + 4) v s = .next t ∧ dmaRead (16 * n.val + 4) t = .next v ∧
      t = s.setChannel n { s.channel n with blockControl := v }) ∧
    (∃ t, dmaWrite 0x70 v s = .next t ∧ dmaRead 0x70 t = .next v ∧ t = s.setDma { s.dma with control := v }) ∧
    (field v 9 2 ≠ 3 → ¬(v.getLsbD 24 = true ∧ (field v 9 2 ≠ 0 ∨ v.getLsbD 28 = true)) →
      ∃ t, dmaWrite (16 * n.val + 8) v s = .next t ∧ dmaRead (16 * n.val + 8) t = .next (v &&& 0x71770703#32) ∧
        t = s.setChannel n { s.channel n with control := v &&& 0x71770703#32 }) ∧
    (field v 9 2 = 3 → dmaWrite (16 * n.val + 8) v s = .fault (.unimplemented s.messages)) ∧
    (∀ o, o ∈ [16 * n.val + 12, 0x78, 0x7C] →
      dmaRead o s = .fault (.outOfRange s.messages) ∧ dmaWrite o v s = .fault (.outOfRange s.messages))

/-- For every state and written word v, the store to the interrupt register changes that register only: bits 5:0, 15,
22:16 and 23 are v's, bits 14:6 are zero, a flag (30:24) stays set exactly if it was set and v has a 0 there, and
bit 31 is v[15] or (v[23] and some channel enabled in v has its flag still set); a read of the register then answers
the stored word. In every state a read answers the stored bits 5:0 and 30:15, zeros in 14:6, and in bit 31 the
signal by that formula of the stored bits (computed again at the read by the model's log 15, which agrees with the
stored bit in every state a run reaches). That bits 5:0 are stored is the spec's decision D26 (log 8). (50_dma.md
section 4 (interrupt write), 50_dma.md section 3 (interrupt register).) -/
def Obligations.InterruptRegisterWrite : Prop :=
  (∀ (s : State) (v : Word), ∃ t, dmaWrite 0x74 v s = .next t ∧
    t = s.setDma { s.dma with interrupt := t.dma.interrupt } ∧
    (∀ k, k < 6 ∨ k = 15 ∨ (16 ≤ k ∧ k < 24) → t.dma.interrupt.getLsbD k = v.getLsbD k) ∧
    (∀ k, 6 ≤ k → k < 15 → t.dma.interrupt.getLsbD k = false) ∧
    (∀ k, 24 ≤ k → k < 31 → t.dma.interrupt.getLsbD k = (s.dma.interrupt.getLsbD k && !v.getLsbD k)) ∧
    (t.dma.interrupt.getLsbD 31 = true ↔
      v.getLsbD 15 = true ∨
        (v.getLsbD 23 = true ∧ ∃ n, n < 7 ∧ v.getLsbD (16 + n) = true ∧
          s.dma.interrupt.getLsbD (24 + n) = true ∧ v.getLsbD (24 + n) = false)) ∧
    dmaRead 0x74 t = .next t.dma.interrupt) ∧
  ∀ s : State, ∃ r, dmaRead 0x74 s = .next r ∧
    (∀ k, k < 6 ∨ (15 ≤ k ∧ k < 31) → r.getLsbD k = s.dma.interrupt.getLsbD k) ∧
    (∀ k, 6 ≤ k → k < 15 → r.getLsbD k = false) ∧
    (r.getLsbD 31 = true ↔
      s.dma.interrupt.getLsbD 15 = true ∨
        (s.dma.interrupt.getLsbD 23 = true ∧ ∃ n, n < 7 ∧ s.dma.interrupt.getLsbD (16 + n) = true ∧
          s.dma.interrupt.getLsbD (24 + n) = true))

/-- For every state, channel n and control word that starts a Manual or Request transfer (enable set, sync 0 with
trigger or sync 1), of size words by block_control: a size of 0 only stores control with enable and trigger clear;
otherwise another channel than 2 from RAM or than 6 to RAM halts Unimplemented; channel 2 from RAM is the words at
base and each 4 up (Decrement: down) pushed to GP0 in order; channel 6 to RAM answers a next state with only control
and the size words changed and, up to 0x80000 words, each holding its own address less 4 (masked to 21 bits), the
last 0x00FFFFFF. base and block_control stay. The spec's decisions: bit positions D20, ports D21, exact size D23,
pointer D24, registers kept D25 (log 8). (50_dma.md section 5 (block engine, GPU and OTC ports), 50_dma.md section 2
(transfer_size, active).) -/
def Obligations.BlockTransfersByPort : Prop :=
  ∀ (s : State) (n : Fin 7) (v : Word),
    v.getLsbD 24 = true → (field v 9 2 = 0 ∧ v.getLsbD 28 = true) ∨ field v 9 2 = 1 →
    let c := s.channel n
    let blockSize := c.blockControl.toNat % 0x10000
    let size := if field v 9 2 = 0 then blockSize else blockSize * (c.blockControl.toNat / 0x10000)
    let addr (k : Nat) : Word :=
      if v.getLsbD 1 then c.base.setWidth 32 - BitVec.ofNat 32 (4 * k) else c.base.setWidth 32 + BitVec.ofNat 32 (4 * k)
    let started := s.setChannel n { c with control := v &&& 0x71770703#32 }
    let finished (t : State) : State := t.setChannel n { c with control := v &&& 0x60770703#32 }
    (size = 0 → controlWrite n v s = .next (finished s)) ∧
    (size ≠ 0 → n ≠ (if v.getLsbD 0 then 2 else 6) → controlWrite n v s = .fault (.unimplemented s.messages)) ∧
    (v.getLsbD 0 = true → n = 2 →
      controlWrite n v s =
        andThen (gp0All ((List.range size).map fun k => ram32 s (addr k)) started) fun t => .next (finished t)) ∧
    (v.getLsbD 0 = false → n = 6 → s.mem.wf → ∃ t, controlWrite n v s = .next t ∧
      t = { finished s with mem := t.mem } ∧
      (∀ q, (∀ k, k < size → q < (addr k &&& ramMask).toNat ∨ (addr k &&& ramMask).toNat + 4 ≤ q) →
        t.mem.read q = s.mem.read q) ∧
      (size ≤ 0x80000 →
        (∀ k, k + 1 < size → ram32 t (addr k) = (addr k - 4) &&& 0x001FFFFF#32) ∧
        (0 < size → ram32 t (addr (size - 1)) = 0x00FFFFFF#32)))

/-- For every state and control word that starts a LinkedList transfer (enable set, sync 2): on channel 2 from RAM, if
the list at base (masked to a RAM word address) meets a terminator within k nodes (k at most the engine's bound, the
model's choice of log 9), the control write is the payload words of the nodes up to and with the terminator, read
from RAM as it stands at the start, pushed to GP0 in order, and then enable and trigger cleared; it stops only as
those pushes stop. On another channel, or to RAM, it halts Unimplemented. The spec's decisions: bit positions D20,
the channel D21, registers kept D25, payload before terminator test D37 (log 8). (50_dma.md section 5 (linked-list
engine).) -/
def Obligations.LinkedListTransferPushesThePayload : Prop :=
  ∀ (s : State) (n : Fin 7) (v : Word), v.getLsbD 24 = true → field v 9 2 = 2 →
    let c := s.channel n
    (n ≠ 2 ∨ v.getLsbD 0 = false → controlWrite n v s = .fault (.unimplemented s.messages)) ∧
    (n = 2 → v.getLsbD 0 = true → ∀ (k : Nat) (ws : List Word), k ≤ listFuel →
      listPayload s.mem k (c.base.setWidth 32 &&& ramMask) = some ws →
      controlWrite n v s =
        andThen (gp0All ws (s.setChannel n { c with control := v &&& 0x71770703#32 }))
          fun t => .next (t.setChannel n { c with control := v &&& 0x60770703#32 }))

/-- From every state with the parser in Command mode and no command in flight: the words of a monochrome quad, textured
quad, shaded triangle, shaded quad append exactly their message, with the vertices in the order of the command's
words; a drawing-offset word stores the two signed 11-bit fields and appends an offset message with their values and
then a draw; and the parser is again ready for a header. Nothing else changes: the next state is the old one with
its messages extended and of the GPU the buffer, opcode byte and counter (and by the drawing offset the two
offsets). A vertex's x and y are bits 10:0 and 26:16 of its position word as signed values, its r, g, b bytes 0, 1,
2 of its colour word; a textured vertex is r = 0x80, g = b = 0. Which words of 0x2C are positions, the colour lanes
and the offset fields are the spec's decisions D34, D36, D30 (log 8). (51_gpu.md section 2, 52_host.md section 2.) -/
def Obligations.DrawingCommandsEmitTheirMessage : Prop :=
  (∀ p c : Word,
    (vertex p c).x.toInt = (field p 0 11).toInt ∧ (vertex p c).y.toInt = (field p 16 11).toInt ∧
    (vertex p c).r.toNat = (byteOf c 0).toNat ∧ (vertex p c).g.toNat = (byteOf c 1).toNat ∧
    (vertex p c).b.toNat = (byteOf c 2).toNat) ∧
  ∀ (s : State) (w0 w1 w2 w3 w4 w5 w6 w7 w8 : Word), s.gpu.mode = .command → s.gpu.argRemaining = 0 →
    let op := field w0 24 8
    let after (g : Gpu) (words : List Word) (ms : List Message) : State :=
      { s with
        gpu := { g with buf := words, opcode := op, argRemaining := 0 }
        messages := s.messages ++ ms }
    (op = 0x28 → gp0All [w0, w1, w2, w3, w4] s = .next (after s.gpu [w0, w1, w2, w3, w4]
      [.quad (vertex w1 w0) (vertex w2 w0) (vertex w3 w0) (vertex w4 w0)])) ∧
    (op = 0x2C → gp0All [w0, w1, w2, w3, w4, w5, w6, w7, w8] s =
      .next (after s.gpu [w0, w1, w2, w3, w4, w5, w6, w7, w8]
        [.quad (vertex w1 0x80) (vertex w3 0x80) (vertex w5 0x80) (vertex w7 0x80)])) ∧
    (op = 0x30 → gp0All [w0, w1, w2, w3, w4, w5] s = .next (after s.gpu [w0, w1, w2, w3, w4, w5]
      [.triangle (vertex w1 w0) (vertex w3 w2) (vertex w5 w4)])) ∧
    (op = 0x38 → gp0All [w0, w1, w2, w3, w4, w5, w6, w7] s = .next (after s.gpu [w0, w1, w2, w3, w4, w5, w6, w7]
      [.quad (vertex w1 w0) (vertex w3 w2) (vertex w5 w4) (vertex w7 w6)])) ∧
    (op = 0xE5 → ∃ x y,
      gp0All [w0] s = .next (after { s.gpu with offsetX := field w0 0 11, offsetY := field w0 11 11 } [w0]
        [.offset x y, .draw]) ∧
      x.toInt = (field w0 0 11).toInt ∧ y.toInt = (field w0 11 11).toInt)

/-- From every state with no command in flight, one word with opcode 0xE1 sets status[10:0], status[15] and the flips
and keeps the other status bits; 0xE2 sets the texture window; 0xE3 and 0xE4 the draw area's corners; 0xE6
status[11] and status[12]; 0x00, 0x01 and the three words of 0xC0 set nothing; but for these fields only the
parser's own change. No message is emitted, memory and DMA are unchanged. Bit positions are the spec's decision D30.
(51_gpu.md section 2 (draw mode to mask bits).) -/
def Obligations.DrawStateCommandsWriteTheirFields : Prop :=
  ∀ (s : State) (w w1 w2 : Word), s.gpu.mode = .command → s.gpu.argRemaining = 0 →
    let op := field w 24 8
    let after (t : State) (g : Gpu) : Prop := t = s.setGpu { g with buf := [w], opcode := op, argRemaining := 0 }
    (op = 0xE1 → ∃ t st, gp0Exec w s = .next t ∧
      after t { s.gpu with status := st, flipX := w.getLsbD 12, flipY := w.getLsbD 13 } ∧
      field st 0 11 = field w 0 11 ∧ st.getLsbD 15 = w.getLsbD 11 ∧
      field st 11 4 = field s.gpu.status 11 4 ∧ field st 16 16 = field s.gpu.status 16 16) ∧
    (op = 0xE2 → ∃ t, gp0Exec w s = .next t ∧
      after t { s.gpu with twMaskX := field w 0 5, twMaskY := field w 5 5, twOffsetX := field w 10 5, twOffsetY := field w 15 5 }) ∧
    (op = 0xE3 → ∃ t, gp0Exec w s = .next t ∧ after t { s.gpu with areaLeft := field w 0 10, areaTop := field w 10 10 }) ∧
    (op = 0xE4 → ∃ t, gp0Exec w s = .next t ∧ after t { s.gpu with areaRight := field w 0 10, areaBottom := field w 10 10 }) ∧
    (op = 0xE6 → ∃ t st, gp0Exec w s = .next t ∧ after t { s.gpu with status := st } ∧
      st.getLsbD 11 = w.getLsbD 0 ∧ st.getLsbD 12 = w.getLsbD 1 ∧
      field st 0 11 = field s.gpu.status 0 11 ∧ field st 13 19 = field s.gpu.status 13 19) ∧
    (op = 0x00 ∨ op = 0x01 → ∃ t, gp0Exec w s = .next t ∧ after t s.gpu) ∧
    (op = 0xC0 → gp0All [w, w1, w2] s =
      .next (s.setGpu { s.gpu with buf := [w, w1, w2], opcode := op, argRemaining := 0 }))

/-- From every state with no command in flight, for a header with opcode 0xA0, any destination word, and a size word
with w = bits 15:0 and h = bits 31:16: if w*h = 0 the third word halts Unimplemented (the spec's decision D33);
otherwise any ceil(w*h/2) further words are swallowed, after which the parser is in Command mode with no command in
flight and only the parser's fields have changed. The halves of the size word are D33 too (log 8). (51_gpu.md
section 2 (image load and ImageLoad mode).) -/
def Obligations.ImageLoadSwallowsItsWords : Prop :=
  ∀ (s : State) (header dest size : Word) (pixels : List Word), s.gpu.mode = .command → s.gpu.argRemaining = 0 →
    field header 24 8 = 0xA0 →
    let words := ((size.toNat % 2 ^ 16) * (size.toNat / 2 ^ 16) + 1) / 2
    (words = 0 → gp0All [header, dest, size] s = .fault (.unimplemented s.messages)) ∧
    (words ≠ 0 → pixels.length = words → ∃ t, gp0All ([header, dest, size] ++ pixels) s = .next t ∧
      t = s.setGpu { s.gpu with buf := t.gpu.buf, opcode := t.gpu.opcode, argRemaining := 0, mode := .command })

/-- For every state and GP1 word w, by its opcode: 0x00 sets the reset values of status, draw state and display and
empties the buffer; 0x01 empties the buffer and returns to Command mode; 0x02 clears status[24]; 0x03 sets
status[23] from w[0]; 0x04 sets the direction and recomputes dma_request; 0x05 to 0x07 set the display registers,
vram_x even; 0x08 sets the display-mode bits with vres forced to 0; an opcode above 0x08 halts UnknownGpuOpcode.
Only the GPU changes and no message is emitted. Bit positions and the request formula are the spec's decisions D31,
D32, the halt its D48. That 0x00 clears the draw offset without a message is its D49, the status positions its D29
(log 8); that 0x00 and 0x01 leave the opcode byte is the model's choice of log 6. (51_gpu.md section 3 (the control
port).) -/
def Obligations.Gp1CommandsWriteTheirFields : Prop :=
  ∀ (s : State) (w : Word),
    let op := field w 24 8
    let st := s.gpu.status
    (op = 0x00 → gp1Exec w s = .next (s.setGpu { Gpu.reset with opcode := s.gpu.opcode })) ∧
    (op = 0x01 → gp1Exec w s = .next (s.setGpu { s.gpu with buf := [], argRemaining := 0, mode := .command })) ∧
    (op = 0x02 ∨ op = 0x03 ∨ op = 0x04 ∨ op = 0x08 → ∃ t, gp1Exec w s = .next t ∧
      t = s.setGpu { s.gpu with status := t.gpu.status } ∧
      (op = 0x02 → ∀ k, t.gpu.status.getLsbD k = (k != 24 && st.getLsbD k)) ∧
      (op = 0x03 → ∀ k, t.gpu.status.getLsbD k = if k = 23 then w.getLsbD 0 else st.getLsbD k) ∧
      (op = 0x04 → ∀ k, t.gpu.status.getLsbD k =
        if k = 29 then w.getLsbD 0 else if k = 30 then w.getLsbD 1
        else if k = 25 then
          (if w.getLsbD 1 then (if w.getLsbD 0 then st.getLsbD 27 else st.getLsbD 28) else w.getLsbD 0)
        else st.getLsbD k) ∧
      (op = 0x08 → ∀ k, t.gpu.status.getLsbD k =
        if k = 17 then w.getLsbD 0 else if k = 18 then w.getLsbD 1 else if k = 19 then false
        else if k = 20 then w.getLsbD 3 else if k = 21 then w.getLsbD 4 else if k = 22 then w.getLsbD 5
        else if k = 16 then w.getLsbD 6 else if k = 14 then w.getLsbD 7 else st.getLsbD k)) ∧
    (op = 0x05 → ∃ t, gp1Exec w s = .next t ∧ t = s.setGpu { s.gpu with vramX := t.gpu.vramX, vramY := field w 10 9 } ∧
      t.gpu.vramX.toNat = w.toNat % 1024 / 2 * 2) ∧
    (op = 0x06 → gp1Exec w s = .next (s.setGpu { s.gpu with hStart := field w 0 12, hEnd := field w 12 12 })) ∧
    (op = 0x07 → gp1Exec w s = .next (s.setGpu { s.gpu with vStart := field w 0 10, vEnd := field w 10 10 })) ∧
    (0x08 < op.toNat → gp1Exec w s = .fault (.unknownGpuOpcode s.messages))

/-- For every state with the parser in Command mode and no command in flight, a GP0 word whose top byte is none of the
fourteen opcodes of the table halts UnknownGpuOpcode, and one whose top byte is one of them answers a next state;
while a command is in flight or in ImageLoad mode no word halts UnknownGpuOpcode. That the last holds of an
assembled opcode without a row too, in states no run reaches, is the model's choice of log 12; the halt's name is
the spec's decision D38 (log 8). (51_gpu.md section 2 (the parser, the opcode table, unknown opcodes, ImageLoad
mode).) -/
def Obligations.UnknownGpuOpcodesHalt : Prop :=
  ∀ (s : State) (w : Word),
    let rows : List (BitVec 8) := [0x00, 0x01, 0x28, 0x2C, 0x30, 0x38, 0xA0, 0xC0, 0xE1, 0xE2, 0xE3, 0xE4, 0xE5, 0xE6]
    (s.gpu.mode = .command → s.gpu.argRemaining = 0 →
      (field w 24 8 ∉ rows → gp0Exec w s = .fault (.unknownGpuOpcode s.messages)) ∧
      (field w 24 8 ∈ rows → ∃ t, gp0Exec w s = .next t)) ∧
    (s.gpu.mode = .imageLoad ∨ s.gpu.argRemaining ≠ 0 → ∀ e, gp0Exec w s ≠ .fault (.unknownGpuOpcode e))
end

