-- ==== Sys2Proof/Laws/State.lean ====
section
/-!
SUPPORT. One lemma for each field of the state and each update of it, true by definition, so that no later proof
unfolds a record update.
-/

namespace Sys2Proof.Machine

section
variable (s : State) (r : RegIdx) (v : Word)
@[simp] theorem State.writeReg_gpr : (s.writeReg r v).gpr = s.gpr := rfl
@[simp] theorem State.writeReg_outGpr : (s.writeReg r v).outGpr = s.outGpr.set r v := rfl
@[simp] theorem State.writeReg_pending : (s.writeReg r v).pending = s.pending := rfl
@[simp] theorem State.writeReg_pc : (s.writeReg r v).pc = s.pc := rfl
@[simp] theorem State.writeReg_nextPc : (s.writeReg r v).nextPc = s.nextPc := rfl
@[simp] theorem State.writeReg_currentPc : (s.writeReg r v).currentPc = s.currentPc := rfl
@[simp] theorem State.writeReg_hi : (s.writeReg r v).hi = s.hi := rfl
@[simp] theorem State.writeReg_lo : (s.writeReg r v).lo = s.lo := rfl
@[simp] theorem State.writeReg_branchTaken : (s.writeReg r v).branchTaken = s.branchTaken := rfl
@[simp] theorem State.writeReg_inDelaySlot : (s.writeReg r v).inDelaySlot = s.inDelaySlot := rfl
@[simp] theorem State.writeReg_sr : (s.writeReg r v).sr = s.sr := rfl
@[simp] theorem State.writeReg_cause : (s.writeReg r v).cause = s.cause := rfl
@[simp] theorem State.writeReg_epc : (s.writeReg r v).epc = s.epc := rfl
@[simp] theorem State.writeReg_mem : (s.writeReg r v).mem = s.mem := rfl
@[simp] theorem State.writeReg_dma : (s.writeReg r v).dma = s.dma := rfl
@[simp] theorem State.writeReg_gpu : (s.writeReg r v).gpu = s.gpu := rfl
@[simp] theorem State.writeReg_messages : (s.writeReg r v).messages = s.messages := rfl
@[simp] theorem State.writeReg_shutdown : (s.writeReg r v).shutdown = s.shutdown := rfl
end

section
variable (s : State) (r : RegIdx) (v : Word)
@[simp] theorem State.setPending_gpr : (s.setPending r v).gpr = s.gpr := rfl
@[simp] theorem State.setPending_outGpr : (s.setPending r v).outGpr = s.outGpr := rfl
@[simp] theorem State.setPending_pending : (s.setPending r v).pending = ⟨r, v⟩ := rfl
@[simp] theorem State.setPending_pc : (s.setPending r v).pc = s.pc := rfl
@[simp] theorem State.setPending_nextPc : (s.setPending r v).nextPc = s.nextPc := rfl
@[simp] theorem State.setPending_currentPc : (s.setPending r v).currentPc = s.currentPc := rfl
@[simp] theorem State.setPending_hi : (s.setPending r v).hi = s.hi := rfl
@[simp] theorem State.setPending_lo : (s.setPending r v).lo = s.lo := rfl
@[simp] theorem State.setPending_branchTaken : (s.setPending r v).branchTaken = s.branchTaken := rfl
@[simp] theorem State.setPending_inDelaySlot : (s.setPending r v).inDelaySlot = s.inDelaySlot := rfl
@[simp] theorem State.setPending_sr : (s.setPending r v).sr = s.sr := rfl
@[simp] theorem State.setPending_cause : (s.setPending r v).cause = s.cause := rfl
@[simp] theorem State.setPending_epc : (s.setPending r v).epc = s.epc := rfl
@[simp] theorem State.setPending_mem : (s.setPending r v).mem = s.mem := rfl
@[simp] theorem State.setPending_dma : (s.setPending r v).dma = s.dma := rfl
@[simp] theorem State.setPending_gpu : (s.setPending r v).gpu = s.gpu := rfl
@[simp] theorem State.setPending_messages : (s.setPending r v).messages = s.messages := rfl
@[simp] theorem State.setPending_shutdown : (s.setPending r v).shutdown = s.shutdown := rfl
end

section
variable (s : State) (h l : Word)
@[simp] theorem State.setHiLo_gpr : (s.setHiLo h l).gpr = s.gpr := rfl
@[simp] theorem State.setHiLo_outGpr : (s.setHiLo h l).outGpr = s.outGpr := rfl
@[simp] theorem State.setHiLo_pending : (s.setHiLo h l).pending = s.pending := rfl
@[simp] theorem State.setHiLo_pc : (s.setHiLo h l).pc = s.pc := rfl
@[simp] theorem State.setHiLo_nextPc : (s.setHiLo h l).nextPc = s.nextPc := rfl
@[simp] theorem State.setHiLo_currentPc : (s.setHiLo h l).currentPc = s.currentPc := rfl
@[simp] theorem State.setHiLo_hi : (s.setHiLo h l).hi = h := rfl
@[simp] theorem State.setHiLo_lo : (s.setHiLo h l).lo = l := rfl
@[simp] theorem State.setHiLo_branchTaken : (s.setHiLo h l).branchTaken = s.branchTaken := rfl
@[simp] theorem State.setHiLo_inDelaySlot : (s.setHiLo h l).inDelaySlot = s.inDelaySlot := rfl
@[simp] theorem State.setHiLo_sr : (s.setHiLo h l).sr = s.sr := rfl
@[simp] theorem State.setHiLo_cause : (s.setHiLo h l).cause = s.cause := rfl
@[simp] theorem State.setHiLo_epc : (s.setHiLo h l).epc = s.epc := rfl
@[simp] theorem State.setHiLo_mem : (s.setHiLo h l).mem = s.mem := rfl
@[simp] theorem State.setHiLo_dma : (s.setHiLo h l).dma = s.dma := rfl
@[simp] theorem State.setHiLo_gpu : (s.setHiLo h l).gpu = s.gpu := rfl
@[simp] theorem State.setHiLo_messages : (s.setHiLo h l).messages = s.messages := rfl
@[simp] theorem State.setHiLo_shutdown : (s.setHiLo h l).shutdown = s.shutdown := rfl
end

section
variable (s : State) (a : Word)
@[simp] theorem State.branchTo_gpr : (s.branchTo a).gpr = s.gpr := rfl
@[simp] theorem State.branchTo_outGpr : (s.branchTo a).outGpr = s.outGpr := rfl
@[simp] theorem State.branchTo_pending : (s.branchTo a).pending = s.pending := rfl
@[simp] theorem State.branchTo_pc : (s.branchTo a).pc = s.pc := rfl
@[simp] theorem State.branchTo_nextPc : (s.branchTo a).nextPc = a := rfl
@[simp] theorem State.branchTo_currentPc : (s.branchTo a).currentPc = s.currentPc := rfl
@[simp] theorem State.branchTo_hi : (s.branchTo a).hi = s.hi := rfl
@[simp] theorem State.branchTo_lo : (s.branchTo a).lo = s.lo := rfl
@[simp] theorem State.branchTo_branchTaken : (s.branchTo a).branchTaken = true := rfl
@[simp] theorem State.branchTo_inDelaySlot : (s.branchTo a).inDelaySlot = s.inDelaySlot := rfl
@[simp] theorem State.branchTo_sr : (s.branchTo a).sr = s.sr := rfl
@[simp] theorem State.branchTo_cause : (s.branchTo a).cause = s.cause := rfl
@[simp] theorem State.branchTo_epc : (s.branchTo a).epc = s.epc := rfl
@[simp] theorem State.branchTo_mem : (s.branchTo a).mem = s.mem := rfl
@[simp] theorem State.branchTo_dma : (s.branchTo a).dma = s.dma := rfl
@[simp] theorem State.branchTo_gpu : (s.branchTo a).gpu = s.gpu := rfl
@[simp] theorem State.branchTo_messages : (s.branchTo a).messages = s.messages := rfl
@[simp] theorem State.branchTo_shutdown : (s.branchTo a).shutdown = s.shutdown := rfl
end

section
variable (s : State) (r : RegIdx)
@[simp] theorem State.link_gpr : (s.link r).gpr = s.gpr := rfl
@[simp] theorem State.link_outGpr : (s.link r).outGpr = s.outGpr.set r s.nextPc := rfl
@[simp] theorem State.link_pending : (s.link r).pending = s.pending := rfl
@[simp] theorem State.link_pc : (s.link r).pc = s.pc := rfl
@[simp] theorem State.link_nextPc : (s.link r).nextPc = s.nextPc := rfl
@[simp] theorem State.link_currentPc : (s.link r).currentPc = s.currentPc := rfl
@[simp] theorem State.link_hi : (s.link r).hi = s.hi := rfl
@[simp] theorem State.link_lo : (s.link r).lo = s.lo := rfl
@[simp] theorem State.link_branchTaken : (s.link r).branchTaken = s.branchTaken := rfl
@[simp] theorem State.link_inDelaySlot : (s.link r).inDelaySlot = s.inDelaySlot := rfl
@[simp] theorem State.link_sr : (s.link r).sr = s.sr := rfl
@[simp] theorem State.link_cause : (s.link r).cause = s.cause := rfl
@[simp] theorem State.link_epc : (s.link r).epc = s.epc := rfl
@[simp] theorem State.link_mem : (s.link r).mem = s.mem := rfl
@[simp] theorem State.link_dma : (s.link r).dma = s.dma := rfl
@[simp] theorem State.link_gpu : (s.link r).gpu = s.gpu := rfl
@[simp] theorem State.link_messages : (s.link r).messages = s.messages := rfl
@[simp] theorem State.link_shutdown : (s.link r).shutdown = s.shutdown := rfl
end

section
variable (s : State) (g : Gpu)
@[simp] theorem State.setGpu_gpr : (s.setGpu g).gpr = s.gpr := rfl
@[simp] theorem State.setGpu_outGpr : (s.setGpu g).outGpr = s.outGpr := rfl
@[simp] theorem State.setGpu_pending : (s.setGpu g).pending = s.pending := rfl
@[simp] theorem State.setGpu_pc : (s.setGpu g).pc = s.pc := rfl
@[simp] theorem State.setGpu_nextPc : (s.setGpu g).nextPc = s.nextPc := rfl
@[simp] theorem State.setGpu_currentPc : (s.setGpu g).currentPc = s.currentPc := rfl
@[simp] theorem State.setGpu_hi : (s.setGpu g).hi = s.hi := rfl
@[simp] theorem State.setGpu_lo : (s.setGpu g).lo = s.lo := rfl
@[simp] theorem State.setGpu_branchTaken : (s.setGpu g).branchTaken = s.branchTaken := rfl
@[simp] theorem State.setGpu_inDelaySlot : (s.setGpu g).inDelaySlot = s.inDelaySlot := rfl
@[simp] theorem State.setGpu_sr : (s.setGpu g).sr = s.sr := rfl
@[simp] theorem State.setGpu_cause : (s.setGpu g).cause = s.cause := rfl
@[simp] theorem State.setGpu_epc : (s.setGpu g).epc = s.epc := rfl
@[simp] theorem State.setGpu_mem : (s.setGpu g).mem = s.mem := rfl
@[simp] theorem State.setGpu_dma : (s.setGpu g).dma = s.dma := rfl
@[simp] theorem State.setGpu_gpu : (s.setGpu g).gpu = g := rfl
@[simp] theorem State.setGpu_messages : (s.setGpu g).messages = s.messages := rfl
@[simp] theorem State.setGpu_shutdown : (s.setGpu g).shutdown = s.shutdown := rfl
end

section
variable (s : State) (m : Message)
@[simp] theorem State.emit_gpr : (s.emit m).gpr = s.gpr := rfl
@[simp] theorem State.emit_outGpr : (s.emit m).outGpr = s.outGpr := rfl
@[simp] theorem State.emit_pending : (s.emit m).pending = s.pending := rfl
@[simp] theorem State.emit_pc : (s.emit m).pc = s.pc := rfl
@[simp] theorem State.emit_nextPc : (s.emit m).nextPc = s.nextPc := rfl
@[simp] theorem State.emit_currentPc : (s.emit m).currentPc = s.currentPc := rfl
@[simp] theorem State.emit_hi : (s.emit m).hi = s.hi := rfl
@[simp] theorem State.emit_lo : (s.emit m).lo = s.lo := rfl
@[simp] theorem State.emit_branchTaken : (s.emit m).branchTaken = s.branchTaken := rfl
@[simp] theorem State.emit_inDelaySlot : (s.emit m).inDelaySlot = s.inDelaySlot := rfl
@[simp] theorem State.emit_sr : (s.emit m).sr = s.sr := rfl
@[simp] theorem State.emit_cause : (s.emit m).cause = s.cause := rfl
@[simp] theorem State.emit_epc : (s.emit m).epc = s.epc := rfl
@[simp] theorem State.emit_mem : (s.emit m).mem = s.mem := rfl
@[simp] theorem State.emit_dma : (s.emit m).dma = s.dma := rfl
@[simp] theorem State.emit_gpu : (s.emit m).gpu = s.gpu := rfl
@[simp] theorem State.emit_messages : (s.emit m).messages = s.messages ++ [m] := rfl
@[simp] theorem State.emit_shutdown : (s.emit m).shutdown = s.shutdown := rfl
end

section
variable (s : State) (d : Dma)
@[simp] theorem State.setDma_gpr : (s.setDma d).gpr = s.gpr := rfl
@[simp] theorem State.setDma_outGpr : (s.setDma d).outGpr = s.outGpr := rfl
@[simp] theorem State.setDma_pending : (s.setDma d).pending = s.pending := rfl
@[simp] theorem State.setDma_pc : (s.setDma d).pc = s.pc := rfl
@[simp] theorem State.setDma_nextPc : (s.setDma d).nextPc = s.nextPc := rfl
@[simp] theorem State.setDma_currentPc : (s.setDma d).currentPc = s.currentPc := rfl
@[simp] theorem State.setDma_hi : (s.setDma d).hi = s.hi := rfl
@[simp] theorem State.setDma_lo : (s.setDma d).lo = s.lo := rfl
@[simp] theorem State.setDma_branchTaken : (s.setDma d).branchTaken = s.branchTaken := rfl
@[simp] theorem State.setDma_inDelaySlot : (s.setDma d).inDelaySlot = s.inDelaySlot := rfl
@[simp] theorem State.setDma_sr : (s.setDma d).sr = s.sr := rfl
@[simp] theorem State.setDma_cause : (s.setDma d).cause = s.cause := rfl
@[simp] theorem State.setDma_epc : (s.setDma d).epc = s.epc := rfl
@[simp] theorem State.setDma_mem : (s.setDma d).mem = s.mem := rfl
@[simp] theorem State.setDma_dma : (s.setDma d).dma = d := rfl
@[simp] theorem State.setDma_gpu : (s.setDma d).gpu = s.gpu := rfl
@[simp] theorem State.setDma_messages : (s.setDma d).messages = s.messages := rfl
@[simp] theorem State.setDma_shutdown : (s.setDma d).shutdown = s.shutdown := rfl
end

section
variable (s : State) (n : Fin 7) (c : DmaChannel)
@[simp] theorem State.setChannel_gpr : (s.setChannel n c).gpr = s.gpr := rfl
@[simp] theorem State.setChannel_outGpr : (s.setChannel n c).outGpr = s.outGpr := rfl
@[simp] theorem State.setChannel_pending : (s.setChannel n c).pending = s.pending := rfl
@[simp] theorem State.setChannel_pc : (s.setChannel n c).pc = s.pc := rfl
@[simp] theorem State.setChannel_nextPc : (s.setChannel n c).nextPc = s.nextPc := rfl
@[simp] theorem State.setChannel_currentPc : (s.setChannel n c).currentPc = s.currentPc := rfl
@[simp] theorem State.setChannel_hi : (s.setChannel n c).hi = s.hi := rfl
@[simp] theorem State.setChannel_lo : (s.setChannel n c).lo = s.lo := rfl
@[simp] theorem State.setChannel_branchTaken : (s.setChannel n c).branchTaken = s.branchTaken := rfl
@[simp] theorem State.setChannel_inDelaySlot : (s.setChannel n c).inDelaySlot = s.inDelaySlot := rfl
@[simp] theorem State.setChannel_sr : (s.setChannel n c).sr = s.sr := rfl
@[simp] theorem State.setChannel_cause : (s.setChannel n c).cause = s.cause := rfl
@[simp] theorem State.setChannel_epc : (s.setChannel n c).epc = s.epc := rfl
@[simp] theorem State.setChannel_mem : (s.setChannel n c).mem = s.mem := rfl
@[simp] theorem State.setChannel_dma : (s.setChannel n c).dma = s.dma.setChannel n c := rfl
@[simp] theorem State.setChannel_gpu : (s.setChannel n c).gpu = s.gpu := rfl
@[simp] theorem State.setChannel_messages : (s.setChannel n c).messages = s.messages := rfl
@[simp] theorem State.setChannel_shutdown : (s.setChannel n c).shutdown = s.shutdown := rfl
end

section
variable (s : State) (a v : Word)
@[simp] theorem setRam32_gpr : (setRam32 s a v).gpr = s.gpr := rfl
@[simp] theorem setRam32_outGpr : (setRam32 s a v).outGpr = s.outGpr := rfl
@[simp] theorem setRam32_pending : (setRam32 s a v).pending = s.pending := rfl
@[simp] theorem setRam32_pc : (setRam32 s a v).pc = s.pc := rfl
@[simp] theorem setRam32_nextPc : (setRam32 s a v).nextPc = s.nextPc := rfl
@[simp] theorem setRam32_currentPc : (setRam32 s a v).currentPc = s.currentPc := rfl
@[simp] theorem setRam32_hi : (setRam32 s a v).hi = s.hi := rfl
@[simp] theorem setRam32_lo : (setRam32 s a v).lo = s.lo := rfl
@[simp] theorem setRam32_branchTaken : (setRam32 s a v).branchTaken = s.branchTaken := rfl
@[simp] theorem setRam32_inDelaySlot : (setRam32 s a v).inDelaySlot = s.inDelaySlot := rfl
@[simp] theorem setRam32_sr : (setRam32 s a v).sr = s.sr := rfl
@[simp] theorem setRam32_cause : (setRam32 s a v).cause = s.cause := rfl
@[simp] theorem setRam32_epc : (setRam32 s a v).epc = s.epc := rfl
@[simp] theorem setRam32_mem : (setRam32 s a v).mem = s.mem.store (a &&& ramMask).toNat .word v := rfl
@[simp] theorem setRam32_dma : (setRam32 s a v).dma = s.dma := rfl
@[simp] theorem setRam32_gpu : (setRam32 s a v).gpu = s.gpu := rfl
@[simp] theorem setRam32_messages : (setRam32 s a v).messages = s.messages := rfl
@[simp] theorem setRam32_shutdown : (setRam32 s a v).shutdown = s.shutdown := rfl
end

section
variable (s : State) (n : Fin 7)
@[simp] theorem finishTransfer_gpr : (finishTransfer n s).gpr = s.gpr := rfl
@[simp] theorem finishTransfer_outGpr : (finishTransfer n s).outGpr = s.outGpr := rfl
@[simp] theorem finishTransfer_pending : (finishTransfer n s).pending = s.pending := rfl
@[simp] theorem finishTransfer_pc : (finishTransfer n s).pc = s.pc := rfl
@[simp] theorem finishTransfer_nextPc : (finishTransfer n s).nextPc = s.nextPc := rfl
@[simp] theorem finishTransfer_currentPc : (finishTransfer n s).currentPc = s.currentPc := rfl
@[simp] theorem finishTransfer_hi : (finishTransfer n s).hi = s.hi := rfl
@[simp] theorem finishTransfer_lo : (finishTransfer n s).lo = s.lo := rfl
@[simp] theorem finishTransfer_branchTaken : (finishTransfer n s).branchTaken = s.branchTaken := rfl
@[simp] theorem finishTransfer_inDelaySlot : (finishTransfer n s).inDelaySlot = s.inDelaySlot := rfl
@[simp] theorem finishTransfer_sr : (finishTransfer n s).sr = s.sr := rfl
@[simp] theorem finishTransfer_cause : (finishTransfer n s).cause = s.cause := rfl
@[simp] theorem finishTransfer_epc : (finishTransfer n s).epc = s.epc := rfl
@[simp] theorem finishTransfer_mem : (finishTransfer n s).mem = s.mem := rfl
@[simp] theorem finishTransfer_gpu : (finishTransfer n s).gpu = s.gpu := rfl
@[simp] theorem finishTransfer_messages : (finishTransfer n s).messages = s.messages := rfl
@[simp] theorem finishTransfer_shutdown : (finishTransfer n s).shutdown = s.shutdown := rfl
end

section
variable (s : State) (e : ExcKind)
@[simp] theorem raise_gpr : (raise e s).gpr = s.gpr := rfl
@[simp] theorem raise_outGpr : (raise e s).outGpr = s.outGpr := rfl
@[simp] theorem raise_pending : (raise e s).pending = s.pending := rfl
@[simp] theorem raise_pc : (raise e s).pc = excVector s.sr := rfl
@[simp] theorem raise_nextPc : (raise e s).nextPc = excVector s.sr + 4 := rfl
@[simp] theorem raise_currentPc : (raise e s).currentPc = s.currentPc := rfl
@[simp] theorem raise_hi : (raise e s).hi = s.hi := rfl
@[simp] theorem raise_lo : (raise e s).lo = s.lo := rfl
@[simp] theorem raise_branchTaken : (raise e s).branchTaken = s.branchTaken := rfl
@[simp] theorem raise_inDelaySlot : (raise e s).inDelaySlot = s.inDelaySlot := rfl
@[simp] theorem raise_sr : (raise e s).sr = pushMode s.sr := rfl
@[simp] theorem raise_mem : (raise e s).mem = s.mem := rfl
@[simp] theorem raise_dma : (raise e s).dma = s.dma := rfl
@[simp] theorem raise_gpu : (raise e s).gpu = s.gpu := rfl
@[simp] theorem raise_messages : (raise e s).messages = s.messages := rfl
@[simp] theorem raise_shutdown : (raise e s).shutdown = s.shutdown := rfl
end

section
variable (s : State)
@[simp] theorem restoreMode_gpr : (restoreMode s).gpr = s.gpr := rfl
@[simp] theorem restoreMode_outGpr : (restoreMode s).outGpr = s.outGpr := rfl
@[simp] theorem restoreMode_pending : (restoreMode s).pending = s.pending := rfl
@[simp] theorem restoreMode_pc : (restoreMode s).pc = s.pc := rfl
@[simp] theorem restoreMode_nextPc : (restoreMode s).nextPc = s.nextPc := rfl
@[simp] theorem restoreMode_currentPc : (restoreMode s).currentPc = s.currentPc := rfl
@[simp] theorem restoreMode_hi : (restoreMode s).hi = s.hi := rfl
@[simp] theorem restoreMode_lo : (restoreMode s).lo = s.lo := rfl
@[simp] theorem restoreMode_branchTaken : (restoreMode s).branchTaken = s.branchTaken := rfl
@[simp] theorem restoreMode_inDelaySlot : (restoreMode s).inDelaySlot = s.inDelaySlot := rfl
@[simp] theorem restoreMode_sr : (restoreMode s).sr = popMode s.sr := rfl
@[simp] theorem restoreMode_cause : (restoreMode s).cause = s.cause := rfl
@[simp] theorem restoreMode_epc : (restoreMode s).epc = s.epc := rfl
@[simp] theorem restoreMode_mem : (restoreMode s).mem = s.mem := rfl
@[simp] theorem restoreMode_dma : (restoreMode s).dma = s.dma := rfl
@[simp] theorem restoreMode_gpu : (restoreMode s).gpu = s.gpu := rfl
@[simp] theorem restoreMode_messages : (restoreMode s).messages = s.messages := rfl
@[simp] theorem restoreMode_shutdown : (restoreMode s).shutdown = s.shutdown := rfl
end

section
variable (s : State)
@[simp] theorem capturePc_gpr : (capturePc s).gpr = s.gpr := rfl
@[simp] theorem capturePc_outGpr : (capturePc s).outGpr = s.outGpr := rfl
@[simp] theorem capturePc_pending : (capturePc s).pending = s.pending := rfl
@[simp] theorem capturePc_pc : (capturePc s).pc = s.pc := rfl
@[simp] theorem capturePc_nextPc : (capturePc s).nextPc = s.nextPc := rfl
@[simp] theorem capturePc_currentPc : (capturePc s).currentPc = s.pc := rfl
@[simp] theorem capturePc_hi : (capturePc s).hi = s.hi := rfl
@[simp] theorem capturePc_lo : (capturePc s).lo = s.lo := rfl
@[simp] theorem capturePc_branchTaken : (capturePc s).branchTaken = s.branchTaken := rfl
@[simp] theorem capturePc_inDelaySlot : (capturePc s).inDelaySlot = s.inDelaySlot := rfl
@[simp] theorem capturePc_sr : (capturePc s).sr = s.sr := rfl
@[simp] theorem capturePc_cause : (capturePc s).cause = s.cause := rfl
@[simp] theorem capturePc_epc : (capturePc s).epc = s.epc := rfl
@[simp] theorem capturePc_mem : (capturePc s).mem = s.mem := rfl
@[simp] theorem capturePc_dma : (capturePc s).dma = s.dma := rfl
@[simp] theorem capturePc_gpu : (capturePc s).gpu = s.gpu := rfl
@[simp] theorem capturePc_messages : (capturePc s).messages = s.messages := rfl
@[simp] theorem capturePc_shutdown : (capturePc s).shutdown = s.shutdown := rfl
end

section
variable (s : State)
@[simp] theorem advance_gpr : (advance s).gpr = s.gpr := rfl
@[simp] theorem advance_outGpr : (advance s).outGpr = s.outGpr.set s.pending.reg s.pending.value := rfl
@[simp] theorem advance_pending : (advance s).pending = ⟨0, 0⟩ := rfl
@[simp] theorem advance_pc : (advance s).pc = s.nextPc := rfl
@[simp] theorem advance_nextPc : (advance s).nextPc = s.nextPc + 4 := rfl
@[simp] theorem advance_currentPc : (advance s).currentPc = s.currentPc := rfl
@[simp] theorem advance_hi : (advance s).hi = s.hi := rfl
@[simp] theorem advance_lo : (advance s).lo = s.lo := rfl
@[simp] theorem advance_branchTaken : (advance s).branchTaken = false := rfl
@[simp] theorem advance_inDelaySlot : (advance s).inDelaySlot = s.branchTaken := rfl
@[simp] theorem advance_sr : (advance s).sr = s.sr := rfl
@[simp] theorem advance_cause : (advance s).cause = s.cause := rfl
@[simp] theorem advance_epc : (advance s).epc = s.epc := rfl
@[simp] theorem advance_mem : (advance s).mem = s.mem := rfl
@[simp] theorem advance_dma : (advance s).dma = s.dma := rfl
@[simp] theorem advance_gpu : (advance s).gpu = s.gpu := rfl
@[simp] theorem advance_messages : (advance s).messages = s.messages := rfl
@[simp] theorem advance_shutdown : (advance s).shutdown = s.shutdown := rfl
end

section
variable (s : State)
@[simp] theorem commit_gpr : (commit s).gpr = s.outGpr.set 0 0 := rfl
@[simp] theorem commit_outGpr : (commit s).outGpr = s.outGpr.set 0 0 := rfl
@[simp] theorem commit_pending : (commit s).pending = s.pending := rfl
@[simp] theorem commit_pc : (commit s).pc = s.pc := rfl
@[simp] theorem commit_nextPc : (commit s).nextPc = s.nextPc := rfl
@[simp] theorem commit_currentPc : (commit s).currentPc = s.currentPc := rfl
@[simp] theorem commit_hi : (commit s).hi = s.hi := rfl
@[simp] theorem commit_lo : (commit s).lo = s.lo := rfl
@[simp] theorem commit_branchTaken : (commit s).branchTaken = s.branchTaken := rfl
@[simp] theorem commit_inDelaySlot : (commit s).inDelaySlot = s.inDelaySlot := rfl
@[simp] theorem commit_sr : (commit s).sr = s.sr := rfl
@[simp] theorem commit_cause : (commit s).cause = s.cause := rfl
@[simp] theorem commit_epc : (commit s).epc = s.epc := rfl
@[simp] theorem commit_mem : (commit s).mem = s.mem := rfl
@[simp] theorem commit_dma : (commit s).dma = s.dma := rfl
@[simp] theorem commit_gpu : (commit s).gpu = s.gpu := rfl
@[simp] theorem commit_messages : (commit s).messages = s.messages := rfl
@[simp] theorem commit_shutdown : (commit s).shutdown = s.shutdown := rfl
end

section
variable (s : State)
@[simp] theorem setShutdown_gpr : (setShutdown s).gpr = s.gpr := rfl
@[simp] theorem setShutdown_outGpr : (setShutdown s).outGpr = s.outGpr := rfl
@[simp] theorem setShutdown_pending : (setShutdown s).pending = s.pending := rfl
@[simp] theorem setShutdown_pc : (setShutdown s).pc = s.pc := rfl
@[simp] theorem setShutdown_nextPc : (setShutdown s).nextPc = s.nextPc := rfl
@[simp] theorem setShutdown_currentPc : (setShutdown s).currentPc = s.currentPc := rfl
@[simp] theorem setShutdown_hi : (setShutdown s).hi = s.hi := rfl
@[simp] theorem setShutdown_lo : (setShutdown s).lo = s.lo := rfl
@[simp] theorem setShutdown_branchTaken : (setShutdown s).branchTaken = s.branchTaken := rfl
@[simp] theorem setShutdown_inDelaySlot : (setShutdown s).inDelaySlot = s.inDelaySlot := rfl
@[simp] theorem setShutdown_sr : (setShutdown s).sr = s.sr := rfl
@[simp] theorem setShutdown_cause : (setShutdown s).cause = s.cause := rfl
@[simp] theorem setShutdown_epc : (setShutdown s).epc = s.epc := rfl
@[simp] theorem setShutdown_mem : (setShutdown s).mem = s.mem := rfl
@[simp] theorem setShutdown_dma : (setShutdown s).dma = s.dma := rfl
@[simp] theorem setShutdown_gpu : (setShutdown s).gpu = s.gpu := rfl
@[simp] theorem setShutdown_messages : (setShutdown s).messages = s.messages := rfl
@[simp] theorem setShutdown_shutdown : (setShutdown s).shutdown = true := rfl
end

end Sys2Proof.Machine
end

