-- ==== Sys2Proof/Laws/Flow.lean ====
section
/-!
SUPPORT. Sequencing of operations that may stop: what `andThen` answers, and that a property kept by both parts is
kept by the whole.
-/

namespace Sys2Proof.Machine

@[simp] theorem andThen_next {α β : Type} (a : α) (f : α → Res β) : andThen (.next a) f = f a := rfl

@[simp] theorem andThen_fault {α β : Type} (e : Fault) (f : α → Res β) : andThen (.fault e) f = .fault e := rfl

@[simp] theorem andThen_refused {α β : Type} (r : Refusal) (f : α → Res β) : andThen (.refused r) f = .refused r := rfl

/-- A sequence answers next exactly when both parts do. -/
theorem andThen_eq_next {α β : Type} {o : Res α} {f : α → Res β} {b : β} :
    andThen o f = .next b ↔ ∃ a, o = .next a ∧ f a = .next b := by
  cases o <;> simp

@[simp] theorem haltOutOfRange_ne_next {α : Type} (s : State) (a : α) : haltOutOfRange s ≠ .next a := nofun

@[simp] theorem haltUnimplemented_ne_next {α : Type} (s : State) (a : α) : haltUnimplemented s ≠ .next a := nofun

@[simp] theorem haltBadWidth_ne_next {α : Type} (s : State) (a : α) : haltBadWidth s ≠ .next a := nofun

@[simp] theorem haltUnknownGpuOpcode_ne_next {α : Type} (s : State) (a : α) : haltUnknownGpuOpcode s ≠ .next a := nofun

end Sys2Proof.Machine
end

