-- ==== Sys2Proof/Laws/Regs.lean ====
section
/-!
SUPPORT. Register arrays: a read after a write, and what the commit leaves in register 0.
-/

namespace Sys2Proof.Machine

@[simp] theorem RegFile.get_set_self (f : RegFile) (r : RegIdx) (v : Word) : (f.set r v).get r = v := by
  simp [RegFile.get, RegFile.set]

theorem RegFile.get_set_ne (f : RegFile) {r q : RegIdx} (v : Word) (h : q ≠ r) : (f.set r v).get q = f.get q := by
  have hv : r.val ≠ q.val := fun e => h (Fin.ext e.symm)
  simp [RegFile.get, RegFile.set, Vector.getElem_set_ne, hv]

/-- A read after a write, in one line. -/
theorem RegFile.get_set (f : RegFile) (r q : RegIdx) (v : Word) :
    (f.set r v).get q = if q = r then v else f.get q := by
  split
  · next h => rw [h, RegFile.get_set_self]
  · next h => exact RegFile.get_set_ne f v h

theorem RegFile.ext_get {f g : RegFile} (h : ∀ r, f.get r = g.get r) : f = g := by
  apply Vector.ext
  intro i hi
  exact h ⟨i, hi⟩

/-- Register 0 reads zero after a commit. -/
@[simp] theorem commit_x_zero (s : State) : (commit s).x 0 = 0 := by simp [State.x]

/-- Every other register reads what the write-back array held. -/
theorem commit_x_ne (s : State) {r : RegIdx} (h : r ≠ 0) : (commit s).x r = s.out r := by
  simp [State.x, State.out, RegFile.get_set_ne _ _ h]

end Sys2Proof.Machine
end

