-- ==== Sys2Proof/Laws/Memory.lean ====
section
/-!
SUPPORT. The byte memory: a read after a write, the canonical form kept by every write, equal memories are equal
lists, and the wider accesses by bytes.
-/

namespace Sys2Proof.Machine

@[simp] theorem Memory.read_nil (a : Nat) : Memory.read [] a = Config.unlistedByte := rfl

theorem Memory.read_cons (k : Nat) (b : Byte) (rest : Memory) (a : Nat) :
    Memory.read ((k, b) :: rest) a = if a = k then b else Memory.read rest a := rfl

/-- An address below every listed one is not listed. -/
theorem Memory.read_eq_unlisted {m : Memory} {a : Nat} (h : ∀ c ∈ m, a ≠ c.1) : m.read a = Config.unlistedByte := by
  induction m with
  | nil => rfl
  | cons c rest ih =>
    obtain ⟨k, b⟩ := c
    rw [Memory.read_cons, if_neg (h (k, b) (by simp))]
    exact ih fun c hc => h c (by simp [hc])

theorem Memory.read_entry (a : Nat) (v : Byte) (rest : Memory) (q : Nat)
    (h : ∀ c ∈ rest, a ≠ c.1) : (Memory.entry a v rest).read q = if q = a then v else rest.read q := by
  unfold Memory.entry
  split
  · next hv =>
    split
    · next hq => rw [hq, Memory.read_eq_unlisted h, hv]
    · rfl
  · rw [Memory.read_cons]

theorem Memory.wf_tail {c : Host.Cell} {rest : Memory} (h : Memory.wf (c :: rest)) : Memory.wf rest :=
  ⟨(List.pairwise_cons.1 h.1).2, fun d hd => h.2 d (by simp [hd])⟩

/-- A read after a write of one byte: the byte written at its address, and every other byte as before. -/
theorem Memory.read_write {m : Memory} (h : m.wf) (a : Nat) (v : Byte) (q : Nat) :
    (m.write a v).read q = if q = a then v else m.read q := by
  induction m with
  | nil => exact Memory.read_entry a v [] q (by simp)
  | cons c rest ih =>
    obtain ⟨k, b⟩ := c
    have hlt := (List.pairwise_cons.1 h.1).1
    unfold Memory.write
    split
    · next hak =>
      apply Memory.read_entry
      intro c hc
      rcases List.mem_cons.1 hc with rfl | hc
      · exact Nat.ne_of_lt hak
      · exact Nat.ne_of_lt (Nat.lt_trans hak (hlt c hc))
    · split
      · next hak =>
        subst hak
        rw [Memory.read_entry _ _ _ _ fun c hc => Nat.ne_of_lt (hlt c hc), Memory.read_cons]
        split <;> simp_all
      · next hlt' hne =>
        rw [Memory.read_cons, ih (Memory.wf_tail h), Memory.read_cons]
        by_cases hq : q = k
        · have : k ≠ a := fun e => hne e.symm
          simp [hq, this]
        · simp [hq]

/-- The addresses a write lists are the address written and those listed before. -/
theorem Memory.mem_write {m : Memory} {a : Nat} {v : Byte} {c : Host.Cell} (h : c ∈ m.write a v) :
    c = (a, v) ∧ v ≠ Config.unlistedByte ∨ c ∈ m := by
  induction m with
  | nil =>
    simp only [Memory.write, Memory.entry] at h
    split at h <;> simp_all
  | cons d rest ih =>
    obtain ⟨k, b⟩ := d
    simp only [Memory.write, Memory.entry] at h
    split at h <;> split at h
    · exact .inr h
    · rcases List.mem_cons.1 h with rfl | h
      · exact .inl ⟨rfl, by assumption⟩
      · exact .inr h
    · split at h
      · exact .inr (List.mem_cons_of_mem _ h)
      · rcases List.mem_cons.1 h with rfl | h
        · exact .inl ⟨rfl, by assumption⟩
        · exact .inr (List.mem_cons_of_mem _ h)
    · rcases List.mem_cons.1 h with rfl | h
      · exact .inr (by simp)
      · rcases ih h with h | h
        · exact .inl h
        · exact .inr (List.mem_cons_of_mem _ h)

/-- A write keeps the canonical form. -/
theorem Memory.write_wf {m : Memory} (h : m.wf) (a : Nat) (v : Byte) : (m.write a v).wf := by
  refine ⟨?_, ?_⟩
  · induction m with
    | nil =>
      simp only [Memory.write, Memory.entry]
      split <;> simp
    | cons c rest ih =>
      obtain ⟨k, b⟩ := c
      have hp := List.pairwise_cons.1 h.1
      have above : ∀ d ∈ (k, b) :: rest, k ≤ d.1 := by
        intro d hd
        rcases List.mem_cons.1 hd with rfl | hd
        · exact Nat.le_refl _
        · exact Nat.le_of_lt (hp.1 d hd)
      simp only [Memory.write, Memory.entry]
      split
      · next hak =>
        split
        · exact h.1
        · exact List.pairwise_cons.2 ⟨fun d hd => Nat.lt_of_lt_of_le hak (above d hd), h.1⟩
      · split
        · next hak =>
          split
          · exact hp.2
          · exact List.pairwise_cons.2 ⟨fun d hd => hak ▸ hp.1 d hd, hp.2⟩
        · next hnlt hne =>
          refine List.pairwise_cons.2 ⟨fun d hd => ?_, ih (Memory.wf_tail h)⟩
          rcases Memory.mem_write hd with ⟨rfl, -⟩ | hd
          · exact Nat.lt_of_le_of_ne (Nat.le_of_not_lt hnlt) (fun e => hne e.symm)
          · exact hp.1 d hd
  · intro c hc
    rcases Memory.mem_write hc with ⟨rfl, hv⟩ | hc
    · exact hv
    · exact h.2 c hc

/-- Equal memories are equal data: two memories in the canonical form that read the same are the same list. -/
theorem Memory.ext_read {m n : Memory} (hm : m.wf) (hn : n.wf) (h : ∀ a, m.read a = n.read a) : m = n := by
  induction m generalizing n with
  | nil =>
    cases n with
    | nil => rfl
    | cons d ns =>
      obtain ⟨k, b⟩ := d
      exact absurd (h k).symm (by simpa [Memory.read_cons] using hn.2 (k, b) (by simp))
  | cons c ms ih =>
    obtain ⟨k, b⟩ := c
    cases n with
    | nil => exact absurd (h k) (by simpa [Memory.read_cons] using hm.2 (k, b) (by simp))
    | cons d ns =>
      obtain ⟨k', b'⟩ := d
      have hms := (List.pairwise_cons.1 hm.1).1
      have hns := (List.pairwise_cons.1 hn.1).1
      have hk : k = k' := by
        rcases Nat.lt_trichotomy k k' with hlt | he | hlt
        · have h1 := h k
          rw [Memory.read_cons, if_pos rfl, Memory.read_cons, if_neg (Nat.ne_of_lt hlt),
            Memory.read_eq_unlisted fun c hc => Nat.ne_of_lt (Nat.lt_trans hlt (hns c hc))] at h1
          exact absurd h1 (hm.2 (k, b) (by simp))
        · exact he
        · have h1 := h k'
          rw [Memory.read_cons (k := k'), if_pos rfl, Memory.read_cons, if_neg (Nat.ne_of_lt hlt),
            Memory.read_eq_unlisted fun c hc => Nat.ne_of_lt (Nat.lt_trans hlt (hms c hc))] at h1
          exact absurd h1.symm (hn.2 (k', b') (by simp))
      subst hk
      have hb : b = b' := by simpa [Memory.read_cons] using h k
      subst hb
      congr 1
      refine ih (Memory.wf_tail hm) (Memory.wf_tail hn) fun a => ?_
      by_cases ha : a = k
      · rw [ha, Memory.read_eq_unlisted fun c hc => Nat.ne_of_lt (hms c hc),
          Memory.read_eq_unlisted fun c hc => Nat.ne_of_lt (hns c hc)]
      · simpa [Memory.read_cons, ha] using h a

/-- A store keeps the canonical form. -/
theorem Memory.store_wf {m : Memory} (h : m.wf) (a : Nat) (n : Width) (v : Word) : (m.store a n v).wf := by
  cases n
  · exact Memory.write_wf h _ _
  · exact Memory.write_wf (Memory.write_wf h _ _) _ _
  · exact Memory.write_wf (Memory.write_wf (Memory.write_wf (Memory.write_wf h _ _) _ _) _ _) _ _

/-- A byte after a store: byte `k` of the value `k` bytes above the address, every other byte as before. -/
theorem Memory.read_store {m : Memory} (h : m.wf) (a : Nat) (n : Width) (v : Word) (q : Nat) :
    (m.store a n v).read q = if a ≤ q ∧ q < a + n.bytes then byteOf v (q - a) else m.read q := by
  have w0 := Memory.write_wf h a (byteOf v 0)
  have w1 := Memory.write_wf w0 (a + 1) (byteOf v 1)
  have w2 := Memory.write_wf w1 (a + 2) (byteOf v 2)
  by_cases hr : a ≤ q ∧ q < a + n.bytes
  · obtain ⟨j, rfl⟩ := Nat.exists_eq_add_of_le hr.1
    have hj : j < n.bytes := by omega
    rw [if_pos hr, Nat.add_sub_cancel_left]
    cases n <;> simp only [Width.bytes] at hj
    · obtain rfl : j = 0 := by omega
      simp [Memory.store, Memory.read_write h]
    · rcases (by omega : j = 0 ∨ j = 1) with rfl | rfl <;>
        simp [Memory.store, Memory.read_write h, Memory.read_write w0]
    · rcases (by omega : j = 0 ∨ j = 1 ∨ j = 2 ∨ j = 3) with rfl | rfl | rfl | rfl <;>
        simp [Memory.store, Memory.read_write h, Memory.read_write w0, Memory.read_write w1, Memory.read_write w2]
  · rw [if_neg hr]
    cases n <;> simp only [Width.bytes] at hr
    · rw [Memory.store, Memory.read_write h, if_neg (by omega)]
    · rw [Memory.store, Memory.read_write w0, if_neg (by omega), Memory.read_write h, if_neg (by omega)]
    · rw [Memory.store, Memory.read_write w2, if_neg (by omega), Memory.read_write w1, if_neg (by omega),
        Memory.read_write w0, if_neg (by omega), Memory.read_write h, if_neg (by omega)]

/-- The addresses a store lists are its own and those listed before. -/
theorem Memory.mem_store {m : Memory} {a : Nat} {n : Width} {v : Word} {c : Host.Cell} (h : c ∈ m.store a n v) :
    (a ≤ c.1 ∧ c.1 < a + n.bytes) ∨ c ∈ m := by
  have step : ∀ {m' : Memory} {k : Nat} {b : Byte}, k < n.bytes → c ∈ m'.write (a + k) b →
      (a ≤ c.1 ∧ c.1 < a + n.bytes) ∨ c ∈ m' := by
    intro m' k b hk hc
    rcases Memory.mem_write hc with ⟨rfl, -⟩ | hc
    · exact .inl ⟨Nat.le_add_right _ _, by simpa using hk⟩
    · exact .inr hc
  cases n
  · exact step (k := 0) (by decide) h
  · rcases step (k := 1) (by decide) h with h | h
    · exact .inl h
    · exact step (k := 0) (by decide) h
  · rcases step (k := 3) (by decide) h with h | h
    · exact .inl h
    · rcases step (k := 2) (by decide) h with h | h
      · exact .inl h
      · rcases step (k := 1) (by decide) h with h | h
        · exact .inl h
        · exact step (k := 0) (by decide) h

/-- The memory of the reset state is in the canonical form. -/
theorem reset_mem_wf : State.reset.mem.wf := by decide

/-- The bytes of a word put together again. -/
theorem wordOfBytes_byteOf (v : Word) : wordOfBytes (byteOf v 0) (byteOf v 1) (byteOf v 2) (byteOf v 3) = v := by
  apply BitVec.eq_of_getLsbD_eq
  intro i hi
  simp only [wordOfBytes, byteOf, BitVec.getLsbD_append, BitVec.getLsbD_extractLsb']
  have : i < 8 ∨ (8 ≤ i ∧ i < 16) ∨ (16 ≤ i ∧ i < 24) ∨ (24 ≤ i ∧ i < 32) := by omega
  rcases this with h | h | h | h
  · simp [h]
  · have h1 : ¬ i < 8 := by omega
    have h2 : i - 8 < 8 := by omega
    have h3 : 8 + (i - 8) = i := by omega
    simp [h1, h2, h3]
  · have h1 : ¬ i < 8 := by omega
    have h2 : ¬ i - 8 < 8 := by omega
    have h3 : i - 8 - 8 < 8 := by omega
    have h4 : 16 + (i - 8 - 8) = i := by omega
    simp [h1, h2, h3, h4]
  · have h1 : ¬ i < 8 := by omega
    have h2 : ¬ i - 8 < 8 := by omega
    have h3 : ¬ i - 8 - 8 < 8 := by omega
    have h5 : i - 8 - 8 - 8 < 8 := by omega
    have h4 : 24 + (i - 8 - 8 - 8) = i := by omega
    simp [h1, h2, h3, h4, h5]

end Sys2Proof.Machine
end

