-- ==== Sys2Proof/Laws/Devices.lean ====
section
/-!
SUPPORT. What one word at GP0 or GP1 can change, and what a DMA transfer or register write can change: one lemma for
each shared operation, and one induction over the engines' loops.
-/

namespace Sys2Proof.Machine

/-- A command's action changes the GPU and appends messages, nothing else. -/
theorem Gp0Cmd.run_frame {c : Gp0Cmd} {s t : State} (h : c.run s = .next t) :
    ∃ g ms, t = { s with gpu := g, messages := s.messages ++ ms } := by
  have same : ∀ g, ∃ g' ms, s.setGpu g = { s with gpu := g', messages := s.messages ++ ms } :=
    fun g => ⟨g, [], by simp [State.setGpu]⟩
  have emits : ∀ m, ∃ g ms, s.emit m = { s with gpu := g, messages := s.messages ++ ms } :=
    fun m => ⟨s.gpu, [m], rfl⟩
  have stays : ∃ g ms, s = { s with gpu := g, messages := s.messages ++ ms } := ⟨s.gpu, [], by simp⟩
  cases c <;> simp only [Gp0Cmd.run, Host.Outcome.next.injEq] at h
  case imageLoad =>
    unfold gp0ImageLoad at h
    dsimp only at h
    split at h
    · simp at h
    · cases h
      exact same _
  case drawOffset =>
    subst h
    exact ⟨_, [_, _], by simp [gp0DrawOffset, State.emit, State.setGpu]; exact ⟨rfl, rfl, rfl⟩⟩
  all_goals subst h
  all_goals first | exact stays | exact same _ | exact emits _

/-- A word taken into the command buffer changes the GPU and appends messages, nothing else. -/
theorem gp0Push_frame {w : Word} {s t : State} (h : gp0Push w s = .next t) :
    ∃ g ms, t = { s with gpu := g, messages := s.messages ++ ms } := by
  unfold gp0Push at h
  dsimp only at h
  split at h
  · split at h
    · obtain ⟨g, ms, rfl⟩ := Gp0Cmd.run_frame h
      exact ⟨g, ms, rfl⟩
    · cases h
      exact ⟨_, [], by simp [State.setGpu]; rfl⟩
  · cases h
    exact ⟨_, [], by simp [State.setGpu]; rfl⟩

/-- A word at GP0 changes the GPU and appends messages, nothing else. -/
theorem gp0Exec_frame {w : Word} {s t : State} (h : gp0Exec w s = .next t) :
    ∃ g ms, t = { s with gpu := g, messages := s.messages ++ ms } := by
  unfold gp0Exec at h
  split at h
  · cases h
    exact ⟨_, [], by simp [State.setGpu]; rfl⟩
  · split at h
    · split at h
      · simp at h
      · obtain ⟨g, ms, rfl⟩ := gp0Push_frame h
        exact ⟨g, ms, rfl⟩
    · exact gp0Push_frame h

/-- A word at GP1 changes the GPU as its effect says, and nothing else. -/
theorem gp1Exec_next {w : Word} {s t : State} (h : gp1Exec w s = .next t) :
    ∃ g, gp1Effect w s.gpu = some g ∧ t = s.setGpu g := by
  unfold gp1Exec at h
  split at h
  · next g hg =>
    cases h
    exact ⟨g, hg, rfl⟩
  · simp at h

section
variable {P : State → State → Prop} (refl : ∀ s, P s s) (trans : ∀ {s t u}, P s t → P t u → P s u)
  (gp0 : ∀ {w s t}, gp0Exec w s = .next t → P s t) (ram : ∀ s a v, P s (setRam32 s a v))

include refl trans gp0 in
/-- The payload of a node is words to GP0. -/
theorem pushPayload_induct {cur : Word} {i count : Nat} {s t : State}
    (h : pushPayload cur i count s = .next t) : P s t := by
  induction count generalizing i s with
  | zero => cases h; exact refl _
  | succ n ih =>
    obtain ⟨u, hu, ht⟩ := andThen_eq_next.1 h
    exact trans (gp0 hu) (ih ht)

include refl trans gp0 in
/-- The linked-list loop is words to GP0. -/
theorem listLoop_induct {fuel : Nat} {cur : Word} {s t : State} (h : listLoop fuel cur s = .next t) : P s t := by
  induction fuel generalizing cur s with
  | zero => cases h
  | succ n ih =>
    obtain ⟨u, hu, ht⟩ := andThen_eq_next.1 h
    have hp := pushPayload_induct refl trans gp0 hu
    split at ht
    · cases ht; exact hp
    · exact trans hp (ih ht)

include refl trans gp0 ram in
/-- The block loop is words to GP0 and words written to RAM. -/
theorem blockLoop_induct {n : Fin 7} {c : DmaChannel} {k : Nat} {addr : Word} {s t : State}
    (h : blockLoop n c k addr s = .next t) : P s t := by
  induction k generalizing addr s with
  | zero => cases h; exact refl _
  | succ k ih =>
    obtain ⟨u, hu, ht⟩ := andThen_eq_next.1 h
    refine trans ?_ (ih ht)
    unfold blockWord at hu
    split at hu
    · unfold blockFromRam at hu
      split at hu
      · exact gp0 hu
      · simp at hu
    · unfold blockToRam at hu
      split at hu
      · cases hu; exact ram _ _ _
      · simp at hu

include refl trans gp0 ram in
/-- A transfer is words to GP0 and words written to RAM: a relation that both keep, it keeps. -/
theorem transfer_induct {n : Fin 7} {s t : State} (h : transfer n s = .next t) : P s t := by
  unfold transfer at h
  dsimp only at h
  split at h
  · exact blockLoop_induct refl trans gp0 ram h
  · unfold listEngine at h
    split at h
    · exact listLoop_induct refl trans gp0 h
    · simp at h

end

/-- A transfer changes memory, the GPU and the messages, which grow, and nothing else. -/
theorem transfer_frame {n : Fin 7} {s t : State} (h : transfer n s = .next t) :
    ∃ m g ms, t = { s with mem := m, gpu := g, messages := s.messages ++ ms } := by
  refine transfer_induct (P := fun s t => ∃ m g ms, t = { s with mem := m, gpu := g, messages := s.messages ++ ms })
    (fun s => ⟨s.mem, s.gpu, [], by simp⟩) ?_ ?_ (fun s a v => ⟨_, s.gpu, [], by simp [setRam32]; rfl⟩) h
  · rintro s _ _ ⟨m, g, ms, rfl⟩ ⟨m', g', ms', rfl⟩
    exact ⟨m', g', ms ++ ms', by simp⟩
  · intro w s t h
    obtain ⟨g, ms, rfl⟩ := gp0Exec_frame h
    exact ⟨s.mem, g, ms, rfl⟩

/-- What a control write does: the stored bits, and for an active channel a transfer and its end. -/
theorem controlWrite_next {n : Fin 7} {v : Word} {s t : State} (h : controlWrite n v s = .next t) :
    syncOf v ≠ none ∧
      ((DmaChannel.active { s.channel n with control := v &&& controlMask } = false ∧
          t = s.setChannel n { s.channel n with control := v &&& controlMask }) ∨
        (DmaChannel.active { s.channel n with control := v &&& controlMask } = true ∧
          ∃ u, transfer n (s.setChannel n { s.channel n with control := v &&& controlMask }) = .next u ∧
            t = finishTransfer n u)) := by
  unfold controlWrite at h
  split at h
  · simp at h
  · next hs =>
    refine ⟨by simp [hs], ?_⟩
    simp only [State.channel, State.setChannel, State.setDma, Dma.channel, Dma.setChannel, Vector.getElem_set_self] at h ⊢
    split at h
    · next ha =>
      obtain ⟨u, hu, ht⟩ := andThen_eq_next.1 h
      cases ht
      exact .inr ⟨ha, u, hu, rfl⟩
    · next ha =>
      cases h
      exact .inl ⟨by simpa using ha, rfl⟩

/-- What a store to a DMA register does, by the register. -/
theorem dmaWrite_next {o : Nat} {v : Word} {s t : State} (h : dmaWrite o v s = .next t) :
    (∃ n b, t = s.setChannel n { s.channel n with base := b }) ∨
      (∃ n, t = s.setChannel n { s.channel n with blockControl := v }) ∨
      (∃ n, controlWrite n v s = .next t) ∨
      t = s.setDma { s.dma with control := v } ∨
      t = s.setDma { s.dma with interrupt := interruptWrite s.dma.interrupt v } := by
  unfold dmaWrite at h
  split at h
  · next n _ => cases h; exact .inl ⟨n, _, rfl⟩
  · next n _ => cases h; exact .inr (.inl ⟨n, rfl⟩)
  · next n _ => exact .inr (.inr (.inl ⟨n, h⟩))
  · cases h; exact .inr (.inr (.inr (.inl rfl)))
  · cases h; exact .inr (.inr (.inr (.inr rfl)))
  · simp at h

/-- A store to a DMA register changes memory, the devices and the messages, which grow, and nothing of the CPU. -/
theorem dmaWrite_frame {o : Nat} {v : Word} {s t : State} (h : dmaWrite o v s = .next t) :
    ∃ m d g ms, t = { s with mem := m, dma := d, gpu := g, messages := s.messages ++ ms } := by
  have regs : ∀ d, ∃ m d' g ms, s.setDma d = { s with mem := m, dma := d', gpu := g, messages := s.messages ++ ms } :=
    fun d => ⟨s.mem, d, s.gpu, [], by simp [State.setDma]⟩
  rcases dmaWrite_next h with ⟨n, b, rfl⟩ | ⟨n, rfl⟩ | ⟨n, h⟩ | rfl | rfl
  · exact regs _
  · exact regs _
  · rcases (controlWrite_next h).2 with ⟨-, rfl⟩ | ⟨-, u, hu, rfl⟩
    · exact regs _
    · obtain ⟨m, g, ms, rfl⟩ := transfer_frame hu
      exact ⟨m, _, g, ms, rfl⟩
  · exact regs _
  · exact regs _

end Sys2Proof.Machine
end

