-- ==== Sys2Proof/Laws/Exec.lean ====
section
/-!
SUPPORT. What a bus store, an instruction and a step can do, each said once: the inversion lemmas later proofs cite.
-/

namespace Sys2Proof.Machine

/-- `addr` is a multiple of four exactly when its low two bits are zero. -/
theorem aligned_word_iff (a : Word) : aligned a .word = true ↔ a &&& 3#32 = 0 := by
  have h : ∀ i, (3#32).getLsbD i = decide (i < 2) := by
    intro i
    rcases Nat.lt_or_ge i 32 with hi | hi
    · revert i; decide
    · have : ¬ i < 2 := by omega
      simp [BitVec.getLsbD_of_ge, hi, this]
  constructor
  · intro ha
    simp only [aligned, Bool.and_eq_true, Bool.not_eq_true'] at ha
    apply BitVec.eq_of_getLsbD_eq
    intro i _
    rw [BitVec.getLsbD_and, h]
    rcases (by omega : i = 0 ∨ i = 1 ∨ ¬ i < 2) with rfl | rfl | hi
    · rw [ha.1]; simp
    · rw [ha.2]; simp
    · simp [hi]
  · intro ha
    have bit : ∀ i, (a.getLsbD i && decide (i < 2)) = false := by
      intro i
      have := congrArg (·.getLsbD i) ha
      simpa [BitVec.getLsbD_and, h] using this
    have h0 := bit 0
    have h1 := bit 1
    simp at h0 h1
    simp [aligned, h0, h1]

/-- The bus does not look at `current_pc`, so the fetch is the bus load at `pc`. -/
@[simp] theorem fetch_capturePc (s : State) : fetch (capturePc s) = memRead s.pc .word s := rfl

/-- What a bus store that answers does: nothing (an ignored region), a write to RAM, or a word to a device. -/
theorem memWrite_next {va : Word} {n : Width} {v : Word} {s t : State} (h : memWrite va n v s = .next t) :
    t = s ∨
      ((∃ row, regionAt (physical va).toNat = some row ∧ row.region = .ram) ∧
        t = { s with mem := s.mem.store (physical va).toNat n v }) ∨
      (∃ o, dmaWrite o v s = .next t) ∨ gp0Exec v s = .next t ∨ gp1Exec v s = .next t := by
  unfold memWrite at h
  split at h
  · next row hrow =>
    unfold regionWrite at h
    cases hr : row.region <;> rw [hr] at h <;> simp only at h
    case ram => cases h; exact .inr (.inl ⟨⟨row, hrow, hr⟩, rfl⟩)
    case dma =>
      split at h
      · exact .inr (.inr (.inl ⟨_, h⟩))
      · simp at h
    case gpu =>
      split at h
      · unfold gpuWrite at h
        split at h
        · exact .inr (.inr (.inr (.inl h)))
        · split at h
          · exact .inr (.inr (.inr (.inr h)))
          · simp at h
      · simp at h
    all_goals first | (cases h; exact .inl rfl) | simp at h
  · simp at h

/-- The RAM region is the first row, so its addresses are those below its size. -/
theorem regionAt_ram {p : Nat} {row : RegionRow} (h : regionAt p = some row) (hr : row.region = .ram) :
    p < Config.ramSize := by
  unfold regionAt at h
  have hc := List.find?_some h
  have hm := List.mem_of_find?_eq_some h
  have : row = ⟨.ram, 0x00000000, Config.ramSize⟩ := by
    simp only [regionTable, List.mem_cons, List.not_mem_nil, or_false] at hm
    rcases hm with rfl | rfl | rfl | rfl | rfl | rfl | rfl | rfl | rfl | rfl | rfl | rfl | rfl <;>
      first | rfl | cases hr
  subst this
  simp [RegionRow.contains] at hc
  exact hc

/-- A bus store changes memory, the devices and the messages, which grow, and nothing of the CPU. -/
theorem memWrite_frame {va : Word} {n : Width} {v : Word} {s t : State} (h : memWrite va n v s = .next t) :
    ∃ m d g ms, t = { s with mem := m, dma := d, gpu := g, messages := s.messages ++ ms } := by
  rcases memWrite_next h with rfl | ⟨-, rfl⟩ | ⟨o, h⟩ | h | h
  · exact ⟨t.mem, t.dma, t.gpu, [], by simp⟩
  · exact ⟨_, s.dma, s.gpu, [], by simp; rfl⟩
  · exact dmaWrite_frame h
  · obtain ⟨g, ms, rfl⟩ := gp0Exec_frame h
    exact ⟨s.mem, s.dma, g, ms, rfl⟩
  · obtain ⟨g, -, rfl⟩ := gp1Exec_next h
    exact ⟨s.mem, s.dma, g, [], by simp [State.setGpu]⟩

/-- Everything an instruction that answers a next state can have done, with the operation that did it. -/
inductive Effect (s : State) : State → Prop where
  | nothing : Effect s s
  | register (r : RegIdx) (v : Word) : Effect s (s.writeReg r v)
  | load (r : RegIdx) (v : Word) : Effect s (s.setPending r v)
  | hiLo (hi lo : Word) : Effect s (s.setHiLo hi lo)
  | branch (a : Word) : Effect s (s.branchTo a)
  | linkedBranch (r : RegIdx) (a : Word) : Effect s ((s.link r).branchTo a)
  | exception (e : ExcKind) : Effect s (raise e s)
  | popMode : Effect s (restoreMode s)
  | status (v : Word) : Effect s { s with sr := v }
  | store (va : Word) (n : Width) (v : Word) (t : State) (ha : aligned va n = true)
      (h : memWrite va n v s = .next t) : Effect s t

/-- The word address of an unaligned-word access is aligned. -/
@[simp] theorem aligned_alignWord (a : Word) : aligned (alignWord a) .word = true := by
  simp [aligned, alignWord]

/-- What the loads of one width can do. -/
theorem loadWith_effect {n : Width} {ext : Word → Word} {rt rs : RegIdx} {imm : BitVec 16} {s t : State}
    (h : loadWith n ext rt rs imm s = .next t) : Effect s t := by
  unfold loadWith at h
  dsimp only at h
  split at h
  · cases h; exact .nothing
  · split at h
    · obtain ⟨v, -, ht⟩ := andThen_eq_next.1 h
      cases ht; exact .load _ _
    · cases h; exact .exception _

/-- What the unaligned-word loads can do. -/
theorem loadMerge_effect {merge : Word → Word → Word → Word} {rt rs : RegIdx} {imm : BitVec 16} {s t : State}
    (h : loadMerge merge rt rs imm s = .next t) : Effect s t := by
  unfold loadMerge at h
  dsimp only at h
  split at h
  · cases h; exact .nothing
  · obtain ⟨v, -, ht⟩ := andThen_eq_next.1 h
    cases ht; exact .load _ _

/-- What the stores of one width can do. -/
theorem storeWith_effect {n : Width} {rt rs : RegIdx} {imm : BitVec 16} {s t : State}
    (h : storeWith n rt rs imm s = .next t) : Effect s t := by
  unfold storeWith at h
  dsimp only at h
  split at h
  · cases h; exact .nothing
  · split at h
    · next ha => exact .store _ _ _ _ ha h
    · cases h; exact .exception _

/-- What the unaligned-word stores can do. -/
theorem storeMerge_effect {merge : Word → Word → Word → Word} {rt rs : RegIdx} {imm : BitVec 16} {s t : State}
    (h : storeMerge merge rt rs imm s = .next t) : Effect s t := by
  unfold storeMerge at h
  dsimp only at h
  split at h
  · cases h; exact .nothing
  · obtain ⟨v, -, ht⟩ := andThen_eq_next.1 h
    exact .store _ _ _ _ (aligned_alignWord _) ht

/-- What a conditional branch can do. -/
theorem branchIf_effect (c : Bool) (imm : BitVec 16) (s : State) : Effect s (branchIf c imm s) := by
  unfold branchIf
  split
  · exact .branch _
  · exact .nothing

/-- What a linking conditional branch can do. -/
theorem branchIf_link_effect (c : Bool) (imm : BitVec 16) (r : RegIdx) (s : State) :
    Effect s (branchIf c imm (s.link r)) := by
  unfold branchIf
  split
  · exact .linkedBranch _ _
  · exact .register _ _

/-- What an instruction with an overflow test can do. -/
theorem writeOrOverflow_effect (c : Bool) (r : RegIdx) (v : Word) (s : State) :
    Effect s (writeOrOverflow c r v s) := by
  unfold writeOrOverflow
  split
  · exact .exception _
  · exact .register _ _

/-- What `mtc0` can do. -/
theorem cop0Write_effect {n : RegIdx} {v : Word} {s t : State} (h : cop0Write s n v = some t) : Effect s t := by
  unfold cop0Write at h
  split at h <;> first | (cases h; exact .nothing) | (cases h; exact .status _) | simp at h

/-- What `mfc0` can do. -/
theorem execMfc0_effect {rt rd : RegIdx} {s t : State} (h : execMfc0 rt rd s = .next t) : Effect s t := by
  unfold execMfc0 at h
  split at h
  · cases h; exact .load _ _
  · simp at h

/-- What `mtc0` can do. -/
theorem execMtc0_effect {rt rd : RegIdx} {s t : State} (h : execMtc0 rt rd s = .next t) : Effect s t := by
  unfold execMtc0 at h
  split at h
  · next u hu => cases h; exact cop0Write_effect hu
  · simp at h

/-- Every instruction that answers a next state does one of the effects. -/
theorem exec_effect {i : Instr} {s t : State} (h : exec i s = .next t) : Effect s t := by
  cases i <;> unfold exec at h
  case lb | lbu | lh | lhu | lw => exact loadWith_effect h
  case lwl | lwr => exact loadMerge_effect h
  case sb | sh | sw => exact storeWith_effect h
  case swl | swr => exact storeMerge_effect h
  case mfc0 => exact execMfc0_effect h
  case mtc0 => exact execMtc0_effect h
  case cop2 | lwc2 | swc2 => cases h
  case beq | bne | blez | bgtz | bltz | bgez => cases h; exact branchIf_effect _ _ _
  case bltzal | bgezal => cases h; exact branchIf_link_effect _ _ _ _
  case add | sub | addi => cases h; exact writeOrOverflow_effect _ _ _ _
  case mult | multu | div | divu | mthi | mtlo => cases h; exact .hiLo _ _
  case j | jr => cases h; exact .branch _
  case jal | jalr => cases h; exact .linkedBranch _ _
  case rfe => cases h; exact .popMode
  case syscall | brk | cop1 | cop3 | lwc0 | lwc1 | lwc3 | swc0 | swc1 | swc3 => cases h; exact .exception _
  all_goals cases h; exact .register _ _

/-- A machine that is shut down stays as it is. -/
theorem step_shutdown {s : State} (hs : s.shutdown = true) : step s = .next s := if_pos hs

/-- A running machine with a misaligned `pc` takes the address-error exception. -/
theorem step_misaligned {s : State} (hs : s.shutdown = false) (ha : aligned s.pc .word = false) :
    step s = .next (raise .loadAddr (capturePc s)) := by
  have h : ¬ aligned (capturePc s).currentPc .word = true := by simp [ha]
  simp only [step, hs, runStep, if_neg h]
  rfl

/-- A running machine with an aligned `pc` fetches, advances, executes and commits. -/
theorem step_aligned {s : State} (hs : s.shutdown = false) (ha : aligned s.pc .word = true) :
    step s = andThen (fetch (capturePc s)) fun w =>
      andThen (execWord w (advance (capturePc s))) fun t => .next (commit t) := by
  have h : aligned (capturePc s).currentPc .word = true := ha
  simp only [step, hs, runStep, if_pos h]
  rfl

/-- What a step that answers does: nothing when shut down; an exception where `pc` is misaligned; otherwise the
instruction or the illegal-instruction exception on the advanced state, committed. -/
theorem step_cases {s t : State} (h : step s = .next t) :
    (s.shutdown = true ∧ t = s) ∨
      (s.shutdown = false ∧ aligned s.pc .word = false ∧ t = raise .loadAddr (capturePc s)) ∨
      (s.shutdown = false ∧ aligned s.pc .word = true ∧ ∃ w, fetch (capturePc s) = .next w ∧
        ∃ u, execWord w (advance (capturePc s)) = .next u ∧ t = commit u) := by
  cases hs : s.shutdown
  · cases ha : aligned s.pc .word
    · rw [step_misaligned hs ha] at h
      cases h
      exact .inr (.inl ⟨rfl, rfl, rfl⟩)
    · rw [step_aligned hs ha] at h
      obtain ⟨w, hw, h⟩ := andThen_eq_next.1 h
      obtain ⟨u, hu, h⟩ := andThen_eq_next.1 h
      cases h
      exact .inr (.inr ⟨rfl, rfl, w, hw, u, hu, rfl⟩)
  · rw [step_shutdown hs] at h
    cases h
    exact .inl ⟨rfl, rfl⟩

/-- Step 6 does one of the effects, whatever the word. -/
theorem execWord_effect {w : Word} {s t : State} (h : execWord w s = .next t) : Effect s t := by
  unfold execWord at h
  split at h
  · exact exec_effect h
  · cases h; exact .exception _

/-- A relation that the parts of a step keep is kept by the step: what a step can do, in one induction. -/
theorem step_induct {P : State → State → Prop} (refl : ∀ s, P s s) (trans : ∀ {s t u}, P s t → P t u → P s u)
    (capture : ∀ s, P s (capturePc s)) (adv : ∀ s, P s (advance s)) (com : ∀ s, P s (commit s))
    (eff : ∀ {s t}, Effect s t → P s t) {s t : State} (h : step s = .next t) : P s t := by
  rcases step_cases h with ⟨-, rfl⟩ | ⟨-, -, rfl⟩ | ⟨-, -, w, -, u, hu, rfl⟩
  · exact refl _
  · exact trans (capture _) (eff (.exception _))
  · exact trans (trans (trans (capture _) (adv _)) (eff (execWord_effect hu))) (com _)

end Sys2Proof.Machine
end

