-- ==== Sys2Proof/Laws/Bus.lean ====
section
/-!
SUPPORT. The region table: its rows are disjoint, so the row an address lies in is the row the lookup finds.
-/

namespace Sys2Proof.Machine

/-- No two regions overlap. -/
theorem regionTable_disjoint :
    regionTable.Pairwise fun a b => a.start + a.length ≤ b.start ∨ b.start + b.length ≤ a.start := by decide

/-- The lookup finds the row the address lies in. -/
theorem regionAt_of_mem {p : Nat} {row : RegionRow} (hm : row ∈ regionTable) (h1 : row.start ≤ p)
    (h2 : p < row.start + row.length) : regionAt p = some row := by
  have main : ∀ rows : List RegionRow,
      rows.Pairwise (fun a b => a.start + a.length ≤ b.start ∨ b.start + b.length ≤ a.start) → row ∈ rows →
        rows.find? (·.contains p) = some row := by
    intro rows hd hm
    induction rows with
    | nil => cases hm
    | cons r rest ih =>
      have hr := (List.pairwise_cons.1 hd).1
      rcases List.mem_cons.1 hm with rfl | hm
      · simp [RegionRow.contains, h1, h2]
      · have hsep := hr row hm
        have : r.contains p = false := by
          simp only [RegionRow.contains, Bool.and_eq_false_iff, decide_eq_false_iff_not]
          omega
        rw [List.find?_cons, this]
        exact ih (List.pairwise_cons.1 hd).2 hm
  exact main _ regionTable_disjoint hm

/-- The lookup finds nothing where no row holds the address. -/
theorem regionAt_eq_none {p : Nat} (h : ∀ row ∈ regionTable, p < row.start ∨ row.start + row.length ≤ p) :
    regionAt p = none := by
  refine List.find?_eq_none.2 fun row hm hc => ?_
  simp only [RegionRow.contains, Bool.and_eq_true, decide_eq_true_eq] at hc
  have := h row hm
  omega

/-- A bus load whose address lies in a row is that region's load. -/
theorem memRead_region {va : Word} {n : Width} {s : State} {row : RegionRow} (hm : row ∈ regionTable)
    (h1 : row.start ≤ (physical va).toNat) (h2 : (physical va).toNat < row.start + row.length) :
    memRead va n s = regionRead row.region (physical va).toNat ((physical va).toNat - row.start) n s := by
  unfold memRead
  rw [regionAt_of_mem hm h1 h2]

/-- A bus store whose address lies in a row is that region's store. -/
theorem memWrite_region {va : Word} {n : Width} {v : Word} {s : State} {row : RegionRow} (hm : row ∈ regionTable)
    (h1 : row.start ≤ (physical va).toNat) (h2 : (physical va).toNat < row.start + row.length) :
    memWrite va n v s = regionWrite row.region (physical va).toNat ((physical va).toNat - row.start) n v s := by
  unfold memWrite
  rw [regionAt_of_mem hm h1 h2]

/-- A bus load in RAM reads memory. -/
theorem memRead_ram {va : Word} {n : Width} {s : State} (h : InRam va) :
    memRead va n s = .next (s.mem.load (physical va).toNat n) :=
  memRead_region (row := ⟨.ram, 0, Config.ramSize⟩) (by decide) (Nat.zero_le _) (by simpa [InRam] using h)

/-- A bus store in RAM writes memory. -/
theorem memWrite_ram {va : Word} {n : Width} {v : Word} {s : State} (h : InRam va) :
    memWrite va n v s = .next { s with mem := s.mem.store (physical va).toNat n v } :=
  memWrite_region (row := ⟨.ram, 0, Config.ramSize⟩) (by decide) (Nat.zero_le _) (by simpa [InRam] using h)

end Sys2Proof.Machine
end

