-- ==== Sys2Proof/Laws/Encoding.lean ====
section
/-!
SUPPORT. The fields of an encoded word are the fields it was built from, one lemma for each format and field
(spec/30_encoding.md R131, R132).
-/

namespace Sys2Proof

/-- A register number as a five-bit field and back. -/
@[simp] theorem toFin_ofFin (r : RegIdx) : (BitVec.ofFin (w := 5) r).toFin = r := rfl

section
variable (op : BitVec 6) (rs rt rd : RegIdx) (shamt : BitVec 5) (funct : BitVec 6) (imm : BitVec 16)
  (target : BitVec 26) (sel : BitVec 4) (sense : BitVec 1) (code : BitVec 20)

@[simp] theorem rWord_op : field (rWord op rs rt rd shamt funct) 26 6 = op := by
  apply BitVec.eq_of_getLsbD_eq
  intro i hi
  simp only [field, rWord, BitVec.getLsbD_extractLsb', BitVec.getLsbD_append, hi, decide_true, Bool.true_and]
  repeat' split
  all_goals first | omega | (congr 1; omega)

@[simp] theorem rWord_rs : field (rWord op rs rt rd shamt funct) 21 5 = BitVec.ofFin rs := by
  apply BitVec.eq_of_getLsbD_eq
  intro i hi
  simp only [field, rWord, BitVec.getLsbD_extractLsb', BitVec.getLsbD_append, hi, decide_true, Bool.true_and]
  repeat' split
  all_goals first | omega | (congr 1; omega)

@[simp] theorem rWord_rt : field (rWord op rs rt rd shamt funct) 16 5 = BitVec.ofFin rt := by
  apply BitVec.eq_of_getLsbD_eq
  intro i hi
  simp only [field, rWord, BitVec.getLsbD_extractLsb', BitVec.getLsbD_append, hi, decide_true, Bool.true_and]
  repeat' split
  all_goals first | omega | (congr 1; omega)

@[simp] theorem rWord_rd : field (rWord op rs rt rd shamt funct) 11 5 = BitVec.ofFin rd := by
  apply BitVec.eq_of_getLsbD_eq
  intro i hi
  simp only [field, rWord, BitVec.getLsbD_extractLsb', BitVec.getLsbD_append, hi, decide_true, Bool.true_and]
  repeat' split
  all_goals first | omega | (congr 1; omega)

@[simp] theorem rWord_shamt : field (rWord op rs rt rd shamt funct) 6 5 = shamt := by
  apply BitVec.eq_of_getLsbD_eq
  intro i hi
  simp only [field, rWord, BitVec.getLsbD_extractLsb', BitVec.getLsbD_append, hi, decide_true, Bool.true_and]
  repeat' split
  all_goals first | omega | (congr 1; omega)

@[simp] theorem rWord_funct : field (rWord op rs rt rd shamt funct) 0 6 = funct := by
  apply BitVec.eq_of_getLsbD_eq
  intro i hi
  simp only [field, rWord, BitVec.getLsbD_extractLsb', BitVec.getLsbD_append, hi, decide_true, Bool.true_and]
  repeat' split
  all_goals first | omega | (congr 1; omega)

@[simp] theorem iWord_op : field (iWord op rs rt imm) 26 6 = op := by
  apply BitVec.eq_of_getLsbD_eq
  intro i hi
  simp only [field, iWord, BitVec.getLsbD_extractLsb', BitVec.getLsbD_append, hi, decide_true, Bool.true_and]
  repeat' split
  all_goals first | omega | (congr 1; omega)

@[simp] theorem iWord_rs : field (iWord op rs rt imm) 21 5 = BitVec.ofFin rs := by
  apply BitVec.eq_of_getLsbD_eq
  intro i hi
  simp only [field, iWord, BitVec.getLsbD_extractLsb', BitVec.getLsbD_append, hi, decide_true, Bool.true_and]
  repeat' split
  all_goals first | omega | (congr 1; omega)

@[simp] theorem iWord_rt : field (iWord op rs rt imm) 16 5 = BitVec.ofFin rt := by
  apply BitVec.eq_of_getLsbD_eq
  intro i hi
  simp only [field, iWord, BitVec.getLsbD_extractLsb', BitVec.getLsbD_append, hi, decide_true, Bool.true_and]
  repeat' split
  all_goals first | omega | (congr 1; omega)

@[simp] theorem iWord_imm : field (iWord op rs rt imm) 0 16 = imm := by
  apply BitVec.eq_of_getLsbD_eq
  intro i hi
  simp only [field, iWord, BitVec.getLsbD_extractLsb', BitVec.getLsbD_append, hi, decide_true, Bool.true_and]
  repeat' split
  all_goals first | omega | (congr 1; omega)

@[simp] theorem jWord_op : field (jWord op target) 26 6 = op := by
  apply BitVec.eq_of_getLsbD_eq
  intro i hi
  simp only [field, jWord, BitVec.getLsbD_extractLsb', BitVec.getLsbD_append, hi, decide_true, Bool.true_and]
  repeat' split
  all_goals first | omega | (congr 1; omega)

@[simp] theorem jWord_target : field (jWord op target) 0 26 = target := by
  apply BitVec.eq_of_getLsbD_eq
  intro i hi
  simp only [field, jWord, BitVec.getLsbD_extractLsb', BitVec.getLsbD_append, hi, decide_true, Bool.true_and]
  repeat' split
  all_goals first | omega | (congr 1; omega)

@[simp] theorem bcondzWord_op : field (bcondzWord rs sel sense imm) 26 6 = 0x01#6 := by
  apply BitVec.eq_of_getLsbD_eq
  intro i hi
  simp only [field, bcondzWord, BitVec.getLsbD_extractLsb', BitVec.getLsbD_append, hi, decide_true, Bool.true_and]
  repeat' split
  all_goals first | omega | (congr 1; omega)

@[simp] theorem bcondzWord_rs : field (bcondzWord rs sel sense imm) 21 5 = BitVec.ofFin rs := by
  apply BitVec.eq_of_getLsbD_eq
  intro i hi
  simp only [field, bcondzWord, BitVec.getLsbD_extractLsb', BitVec.getLsbD_append, hi, decide_true, Bool.true_and]
  repeat' split
  all_goals first | omega | (congr 1; omega)

@[simp] theorem bcondzWord_sel : field (bcondzWord rs sel sense imm) 17 4 = sel := by
  apply BitVec.eq_of_getLsbD_eq
  intro i hi
  simp only [field, bcondzWord, BitVec.getLsbD_extractLsb', BitVec.getLsbD_append, hi, decide_true, Bool.true_and]
  repeat' split
  all_goals first | omega | (congr 1; omega)

@[simp] theorem bcondzWord_imm : field (bcondzWord rs sel sense imm) 0 16 = imm := by
  apply BitVec.eq_of_getLsbD_eq
  intro i hi
  simp only [field, bcondzWord, BitVec.getLsbD_extractLsb', BitVec.getLsbD_append, hi, decide_true, Bool.true_and]
  repeat' split
  all_goals first | omega | (congr 1; omega)

@[simp] theorem codeWord_op : field (codeWord code funct) 26 6 = 0x00#6 := by
  apply BitVec.eq_of_getLsbD_eq
  intro i hi
  simp only [field, codeWord, BitVec.getLsbD_extractLsb', BitVec.getLsbD_append, hi, decide_true, Bool.true_and]
  repeat' split
  all_goals first | omega | (congr 1; omega)

@[simp] theorem codeWord_code : field (codeWord code funct) 6 20 = code := by
  apply BitVec.eq_of_getLsbD_eq
  intro i hi
  simp only [field, codeWord, BitVec.getLsbD_extractLsb', BitVec.getLsbD_append, hi, decide_true, Bool.true_and]
  repeat' split
  all_goals first | omega | (congr 1; omega)

@[simp] theorem codeWord_funct : field (codeWord code funct) 0 6 = funct := by
  apply BitVec.eq_of_getLsbD_eq
  intro i hi
  simp only [field, codeWord, BitVec.getLsbD_extractLsb', BitVec.getLsbD_append, hi, decide_true, Bool.true_and]
  repeat' split
  all_goals first | omega | (congr 1; omega)

@[simp] theorem bcondzWord_sense : (bcondzWord rs sel sense imm).getLsbD 16 = sense.getLsbD 0 := by
  simp only [bcondzWord, BitVec.getLsbD_append]
  simp

end

end Sys2Proof
end

