-- ==== Sys2Proof/Laws/PerInstr.lean ====
section
/-!
SUPPORT. Per-instruction facts. `FixedBits`: the instruction's encoding fits the opcode table's row of its own mnemonic
(spec/30_encoding.md R138), one lemma for each constructor.
-/

namespace Sys2Proof.Laws

section
variable (rs rt rd : RegIdx) (shamt : BitVec 5) (imm : BitVec 16) (target : BitVec 26) (sel : BitVec 4)
  (sense : BitVec 1) (code : BitVec 20)

theorem rWord_special_mask (funct : BitVec 6) : rWord 0x00#6 rs rt rd shamt funct &&& 0xFC00003F#32 = funct.setWidth 32 := by
  apply BitVec.eq_of_getLsbD_eq
  intro i hi
  simp only [rWord, BitVec.getLsbD_and, BitVec.getLsbD_append]
  interval_cases i <;> simp

theorem codeWord_mask (funct : BitVec 6) : codeWord code funct &&& 0xFC00003F#32 = funct.setWidth 32 := by
  apply BitVec.eq_of_getLsbD_eq
  intro i hi
  simp only [codeWord, BitVec.getLsbD_and, BitVec.getLsbD_append]
  interval_cases i <;> simp

theorem rWord_cop0_mask (sel0 : RegIdx) : rWord 0x10#6 sel0 rt rd 0 0 &&& 0xFFE00000#32 = 0x40000000#32 ||| ((BitVec.ofFin (w := 5) sel0).setWidth 32 <<< 21) := by
  apply BitVec.eq_of_getLsbD_eq
  intro i hi
  simp only [rWord, BitVec.getLsbD_or, BitVec.getLsbD_and, BitVec.getLsbD_append]
  interval_cases i <;> simp

theorem iWord_mask (op : BitVec 6) : iWord op rs rt imm &&& 0xFC000000#32 = op.setWidth 32 <<< 26 := by
  apply BitVec.eq_of_getLsbD_eq
  intro i hi
  simp only [iWord, BitVec.getLsbD_and, BitVec.getLsbD_append]
  interval_cases i <;> simp

theorem jWord_mask (op : BitVec 6) : jWord op target &&& 0xFC000000#32 = op.setWidth 32 <<< 26 := by
  apply BitVec.eq_of_getLsbD_eq
  intro i hi
  simp only [jWord, BitVec.getLsbD_and, BitVec.getLsbD_append]
  interval_cases i <;> simp

theorem bcondzWord_mask : bcondzWord rs sel sense imm &&& 0xFC010000#32 = 0x04000000#32 ||| (sense.setWidth 32 <<< 16) := by
  apply BitVec.eq_of_getLsbD_eq
  intro i hi
  simp only [bcondzWord, BitVec.getLsbD_or, BitVec.getLsbD_and, BitVec.getLsbD_append]
  interval_cases i <;> simp

theorem bcondzWord_link_mask : bcondzWord rs 0b1000#4 sense imm &&& 0xFC1F0000#32 = 0x04100000#32 ||| (sense.setWidth 32 <<< 16) := by
  apply BitVec.eq_of_getLsbD_eq
  intro i hi
  simp only [bcondzWord, BitVec.getLsbD_or, BitVec.getLsbD_and, BitVec.getLsbD_append]
  interval_cases i <;> simp

end

/-- The encoding fits the row that bears the instruction's name. -/
def FixedBits.Statement (i : Instr) : Prop :=
  ∃ r ∈ opcodeTable, r.mnemonic = i.mnemonic ∧ r.fits (encode i) = true

namespace FixedBits

/-- A row of the table whose mask the encoding meets. -/
theorem of_row {i : Instr} (name : String) (fixed mask : Word) (hm : ⟨name, fixed, mask⟩ ∈ opcodeTable)
    (hn : name = i.mnemonic) (hw : encode i &&& mask = fixed) : Statement i :=
  ⟨⟨name, fixed, mask⟩, hm, hn, by simp [OpcodeRow.fits, hw]⟩

theorem sll (rd rt : RegIdx) (shamt : BitVec 5) : Statement (.sll rd rt shamt) :=
  of_row "sll" 0x00000000#32 0xFC00003F#32 (by decide) rfl ((rWord_special_mask ..).trans (by decide))
theorem srl (rd rt : RegIdx) (shamt : BitVec 5) : Statement (.srl rd rt shamt) :=
  of_row "srl" 0x00000002#32 0xFC00003F#32 (by decide) rfl ((rWord_special_mask ..).trans (by decide))
theorem sra (rd rt : RegIdx) (shamt : BitVec 5) : Statement (.sra rd rt shamt) :=
  of_row "sra" 0x00000003#32 0xFC00003F#32 (by decide) rfl ((rWord_special_mask ..).trans (by decide))
theorem sllv (rd rt rs : RegIdx) : Statement (.sllv rd rt rs) :=
  of_row "sllv" 0x00000004#32 0xFC00003F#32 (by decide) rfl ((rWord_special_mask ..).trans (by decide))
theorem srlv (rd rt rs : RegIdx) : Statement (.srlv rd rt rs) :=
  of_row "srlv" 0x00000006#32 0xFC00003F#32 (by decide) rfl ((rWord_special_mask ..).trans (by decide))
theorem srav (rd rt rs : RegIdx) : Statement (.srav rd rt rs) :=
  of_row "srav" 0x00000007#32 0xFC00003F#32 (by decide) rfl ((rWord_special_mask ..).trans (by decide))
theorem jr (rs : RegIdx) : Statement (.jr rs) :=
  of_row "jr" 0x00000008#32 0xFC00003F#32 (by decide) rfl ((rWord_special_mask ..).trans (by decide))
theorem jalr (rd rs : RegIdx) : Statement (.jalr rd rs) :=
  of_row "jalr" 0x00000009#32 0xFC00003F#32 (by decide) rfl ((rWord_special_mask ..).trans (by decide))
theorem syscall (code : BitVec 20) : Statement (.syscall code) :=
  of_row "syscall" 0x0000000C#32 0xFC00003F#32 (by decide) rfl ((codeWord_mask ..).trans (by decide))
theorem brk (code : BitVec 20) : Statement (.brk code) :=
  of_row "break" 0x0000000D#32 0xFC00003F#32 (by decide) rfl ((codeWord_mask ..).trans (by decide))
theorem mfhi (rd : RegIdx) : Statement (.mfhi rd) :=
  of_row "mfhi" 0x00000010#32 0xFC00003F#32 (by decide) rfl ((rWord_special_mask ..).trans (by decide))
theorem mthi (rs : RegIdx) : Statement (.mthi rs) :=
  of_row "mthi" 0x00000011#32 0xFC00003F#32 (by decide) rfl ((rWord_special_mask ..).trans (by decide))
theorem mflo (rd : RegIdx) : Statement (.mflo rd) :=
  of_row "mflo" 0x00000012#32 0xFC00003F#32 (by decide) rfl ((rWord_special_mask ..).trans (by decide))
theorem mtlo (rs : RegIdx) : Statement (.mtlo rs) :=
  of_row "mtlo" 0x00000013#32 0xFC00003F#32 (by decide) rfl ((rWord_special_mask ..).trans (by decide))
theorem mult (rs rt : RegIdx) : Statement (.mult rs rt) :=
  of_row "mult" 0x00000018#32 0xFC00003F#32 (by decide) rfl ((rWord_special_mask ..).trans (by decide))
theorem multu (rs rt : RegIdx) : Statement (.multu rs rt) :=
  of_row "multu" 0x00000019#32 0xFC00003F#32 (by decide) rfl ((rWord_special_mask ..).trans (by decide))
theorem div (rs rt : RegIdx) : Statement (.div rs rt) :=
  of_row "div" 0x0000001A#32 0xFC00003F#32 (by decide) rfl ((rWord_special_mask ..).trans (by decide))
theorem divu (rs rt : RegIdx) : Statement (.divu rs rt) :=
  of_row "divu" 0x0000001B#32 0xFC00003F#32 (by decide) rfl ((rWord_special_mask ..).trans (by decide))
theorem add (rd rs rt : RegIdx) : Statement (.add rd rs rt) :=
  of_row "add" 0x00000020#32 0xFC00003F#32 (by decide) rfl ((rWord_special_mask ..).trans (by decide))
theorem addu (rd rs rt : RegIdx) : Statement (.addu rd rs rt) :=
  of_row "addu" 0x00000021#32 0xFC00003F#32 (by decide) rfl ((rWord_special_mask ..).trans (by decide))
theorem sub (rd rs rt : RegIdx) : Statement (.sub rd rs rt) :=
  of_row "sub" 0x00000022#32 0xFC00003F#32 (by decide) rfl ((rWord_special_mask ..).trans (by decide))
theorem subu (rd rs rt : RegIdx) : Statement (.subu rd rs rt) :=
  of_row "subu" 0x00000023#32 0xFC00003F#32 (by decide) rfl ((rWord_special_mask ..).trans (by decide))
theorem and (rd rs rt : RegIdx) : Statement (.and rd rs rt) :=
  of_row "and" 0x00000024#32 0xFC00003F#32 (by decide) rfl ((rWord_special_mask ..).trans (by decide))
theorem or (rd rs rt : RegIdx) : Statement (.or rd rs rt) :=
  of_row "or" 0x00000025#32 0xFC00003F#32 (by decide) rfl ((rWord_special_mask ..).trans (by decide))
theorem xor (rd rs rt : RegIdx) : Statement (.xor rd rs rt) :=
  of_row "xor" 0x00000026#32 0xFC00003F#32 (by decide) rfl ((rWord_special_mask ..).trans (by decide))
theorem nor (rd rs rt : RegIdx) : Statement (.nor rd rs rt) :=
  of_row "nor" 0x00000027#32 0xFC00003F#32 (by decide) rfl ((rWord_special_mask ..).trans (by decide))
theorem slt (rd rs rt : RegIdx) : Statement (.slt rd rs rt) :=
  of_row "slt" 0x0000002A#32 0xFC00003F#32 (by decide) rfl ((rWord_special_mask ..).trans (by decide))
theorem sltu (rd rs rt : RegIdx) : Statement (.sltu rd rs rt) :=
  of_row "sltu" 0x0000002B#32 0xFC00003F#32 (by decide) rfl ((rWord_special_mask ..).trans (by decide))
theorem bltzal (rs : RegIdx) (imm : BitVec 16) : Statement (.bltzal rs imm) :=
  of_row "bltzal" 0x04100000#32 0xFC1F0000#32 (by decide) rfl ((bcondzWord_link_mask ..).trans (by decide))
theorem bgezal (rs : RegIdx) (imm : BitVec 16) : Statement (.bgezal rs imm) :=
  of_row "bgezal" 0x04110000#32 0xFC1F0000#32 (by decide) rfl ((bcondzWord_link_mask ..).trans (by decide))
theorem bltz (rs : RegIdx) (sel : BitVec 4) (imm : BitVec 16) : Statement (.bltz rs sel imm) :=
  of_row "bltz" 0x04000000#32 0xFC010000#32 (by decide) rfl ((bcondzWord_mask ..).trans (by decide))
theorem bgez (rs : RegIdx) (sel : BitVec 4) (imm : BitVec 16) : Statement (.bgez rs sel imm) :=
  of_row "bgez" 0x04010000#32 0xFC010000#32 (by decide) rfl ((bcondzWord_mask ..).trans (by decide))
theorem j (target : BitVec 26) : Statement (.j target) :=
  of_row "j" 0x08000000#32 0xFC000000#32 (by decide) rfl ((jWord_mask ..).trans (by decide))
theorem jal (target : BitVec 26) : Statement (.jal target) :=
  of_row "jal" 0x0C000000#32 0xFC000000#32 (by decide) rfl ((jWord_mask ..).trans (by decide))
theorem beq (rs rt : RegIdx) (imm : BitVec 16) : Statement (.beq rs rt imm) :=
  of_row "beq" 0x10000000#32 0xFC000000#32 (by decide) rfl ((iWord_mask ..).trans (by decide))
theorem bne (rs rt : RegIdx) (imm : BitVec 16) : Statement (.bne rs rt imm) :=
  of_row "bne" 0x14000000#32 0xFC000000#32 (by decide) rfl ((iWord_mask ..).trans (by decide))
theorem blez (rs : RegIdx) (imm : BitVec 16) : Statement (.blez rs imm) :=
  of_row "blez" 0x18000000#32 0xFC000000#32 (by decide) rfl ((iWord_mask ..).trans (by decide))
theorem bgtz (rs : RegIdx) (imm : BitVec 16) : Statement (.bgtz rs imm) :=
  of_row "bgtz" 0x1C000000#32 0xFC000000#32 (by decide) rfl ((iWord_mask ..).trans (by decide))
theorem addi (rt rs : RegIdx) (imm : BitVec 16) : Statement (.addi rt rs imm) :=
  of_row "addi" 0x20000000#32 0xFC000000#32 (by decide) rfl ((iWord_mask ..).trans (by decide))
theorem addiu (rt rs : RegIdx) (imm : BitVec 16) : Statement (.addiu rt rs imm) :=
  of_row "addiu" 0x24000000#32 0xFC000000#32 (by decide) rfl ((iWord_mask ..).trans (by decide))
theorem slti (rt rs : RegIdx) (imm : BitVec 16) : Statement (.slti rt rs imm) :=
  of_row "slti" 0x28000000#32 0xFC000000#32 (by decide) rfl ((iWord_mask ..).trans (by decide))
theorem sltiu (rt rs : RegIdx) (imm : BitVec 16) : Statement (.sltiu rt rs imm) :=
  of_row "sltiu" 0x2C000000#32 0xFC000000#32 (by decide) rfl ((iWord_mask ..).trans (by decide))
theorem andi (rt rs : RegIdx) (imm : BitVec 16) : Statement (.andi rt rs imm) :=
  of_row "andi" 0x30000000#32 0xFC000000#32 (by decide) rfl ((iWord_mask ..).trans (by decide))
theorem ori (rt rs : RegIdx) (imm : BitVec 16) : Statement (.ori rt rs imm) :=
  of_row "ori" 0x34000000#32 0xFC000000#32 (by decide) rfl ((iWord_mask ..).trans (by decide))
theorem xori (rt rs : RegIdx) (imm : BitVec 16) : Statement (.xori rt rs imm) :=
  of_row "xori" 0x38000000#32 0xFC000000#32 (by decide) rfl ((iWord_mask ..).trans (by decide))
theorem lui (rt : RegIdx) (imm : BitVec 16) : Statement (.lui rt imm) :=
  of_row "lui" 0x3C000000#32 0xFC000000#32 (by decide) rfl ((iWord_mask ..).trans (by decide))
theorem mfc0 (rt rd : RegIdx) : Statement (.mfc0 rt rd) :=
  of_row "mfc0" 0x40000000#32 0xFFE00000#32 (by decide) rfl ((rWord_cop0_mask ..).trans (by decide))
theorem mtc0 (rt rd : RegIdx) : Statement (.mtc0 rt rd) :=
  of_row "mtc0" 0x40800000#32 0xFFE00000#32 (by decide) rfl ((rWord_cop0_mask ..).trans (by decide))
theorem rfe : Statement (.rfe) :=
  of_row "rfe" 0x42000000#32 0xFFE00000#32 (by decide) rfl (by decide)
theorem cop1 (cofun : BitVec 26) : Statement (.cop1 cofun) :=
  of_row "cop1" 0x44000000#32 0xFC000000#32 (by decide) rfl ((jWord_mask ..).trans (by decide))
theorem cop2 (cofun : BitVec 26) : Statement (.cop2 cofun) :=
  of_row "cop2" 0x48000000#32 0xFC000000#32 (by decide) rfl ((jWord_mask ..).trans (by decide))
theorem cop3 (cofun : BitVec 26) : Statement (.cop3 cofun) :=
  of_row "cop3" 0x4C000000#32 0xFC000000#32 (by decide) rfl ((jWord_mask ..).trans (by decide))
theorem lb (rt rs : RegIdx) (imm : BitVec 16) : Statement (.lb rt rs imm) :=
  of_row "lb" 0x80000000#32 0xFC000000#32 (by decide) rfl ((iWord_mask ..).trans (by decide))
theorem lh (rt rs : RegIdx) (imm : BitVec 16) : Statement (.lh rt rs imm) :=
  of_row "lh" 0x84000000#32 0xFC000000#32 (by decide) rfl ((iWord_mask ..).trans (by decide))
theorem lwl (rt rs : RegIdx) (imm : BitVec 16) : Statement (.lwl rt rs imm) :=
  of_row "lwl" 0x88000000#32 0xFC000000#32 (by decide) rfl ((iWord_mask ..).trans (by decide))
theorem lw (rt rs : RegIdx) (imm : BitVec 16) : Statement (.lw rt rs imm) :=
  of_row "lw" 0x8C000000#32 0xFC000000#32 (by decide) rfl ((iWord_mask ..).trans (by decide))
theorem lbu (rt rs : RegIdx) (imm : BitVec 16) : Statement (.lbu rt rs imm) :=
  of_row "lbu" 0x90000000#32 0xFC000000#32 (by decide) rfl ((iWord_mask ..).trans (by decide))
theorem lhu (rt rs : RegIdx) (imm : BitVec 16) : Statement (.lhu rt rs imm) :=
  of_row "lhu" 0x94000000#32 0xFC000000#32 (by decide) rfl ((iWord_mask ..).trans (by decide))
theorem lwr (rt rs : RegIdx) (imm : BitVec 16) : Statement (.lwr rt rs imm) :=
  of_row "lwr" 0x98000000#32 0xFC000000#32 (by decide) rfl ((iWord_mask ..).trans (by decide))
theorem sb (rt rs : RegIdx) (imm : BitVec 16) : Statement (.sb rt rs imm) :=
  of_row "sb" 0xA0000000#32 0xFC000000#32 (by decide) rfl ((iWord_mask ..).trans (by decide))
theorem sh (rt rs : RegIdx) (imm : BitVec 16) : Statement (.sh rt rs imm) :=
  of_row "sh" 0xA4000000#32 0xFC000000#32 (by decide) rfl ((iWord_mask ..).trans (by decide))
theorem swl (rt rs : RegIdx) (imm : BitVec 16) : Statement (.swl rt rs imm) :=
  of_row "swl" 0xA8000000#32 0xFC000000#32 (by decide) rfl ((iWord_mask ..).trans (by decide))
theorem sw (rt rs : RegIdx) (imm : BitVec 16) : Statement (.sw rt rs imm) :=
  of_row "sw" 0xAC000000#32 0xFC000000#32 (by decide) rfl ((iWord_mask ..).trans (by decide))
theorem swr (rt rs : RegIdx) (imm : BitVec 16) : Statement (.swr rt rs imm) :=
  of_row "swr" 0xB8000000#32 0xFC000000#32 (by decide) rfl ((iWord_mask ..).trans (by decide))
theorem lwc0 (rt rs : RegIdx) (imm : BitVec 16) : Statement (.lwc0 rt rs imm) :=
  of_row "lwc0" 0xC0000000#32 0xFC000000#32 (by decide) rfl ((iWord_mask ..).trans (by decide))
theorem lwc1 (rt rs : RegIdx) (imm : BitVec 16) : Statement (.lwc1 rt rs imm) :=
  of_row "lwc1" 0xC4000000#32 0xFC000000#32 (by decide) rfl ((iWord_mask ..).trans (by decide))
theorem lwc2 (rt rs : RegIdx) (imm : BitVec 16) : Statement (.lwc2 rt rs imm) :=
  of_row "lwc2" 0xC8000000#32 0xFC000000#32 (by decide) rfl ((iWord_mask ..).trans (by decide))
theorem lwc3 (rt rs : RegIdx) (imm : BitVec 16) : Statement (.lwc3 rt rs imm) :=
  of_row "lwc3" 0xCC000000#32 0xFC000000#32 (by decide) rfl ((iWord_mask ..).trans (by decide))
theorem swc0 (rt rs : RegIdx) (imm : BitVec 16) : Statement (.swc0 rt rs imm) :=
  of_row "swc0" 0xE0000000#32 0xFC000000#32 (by decide) rfl ((iWord_mask ..).trans (by decide))
theorem swc1 (rt rs : RegIdx) (imm : BitVec 16) : Statement (.swc1 rt rs imm) :=
  of_row "swc1" 0xE4000000#32 0xFC000000#32 (by decide) rfl ((iWord_mask ..).trans (by decide))
theorem swc2 (rt rs : RegIdx) (imm : BitVec 16) : Statement (.swc2 rt rs imm) :=
  of_row "swc2" 0xE8000000#32 0xFC000000#32 (by decide) rfl ((iWord_mask ..).trans (by decide))
theorem swc3 (rt rs : RegIdx) (imm : BitVec 16) : Statement (.swc3 rt rs imm) :=
  of_row "swc3" 0xEC000000#32 0xFC000000#32 (by decide) rfl ((iWord_mask ..).trans (by decide))

end FixedBits

end Sys2Proof.Laws
end

