-- ==== Sys2Proof/Laws/PowerOn.lean ====
section
/-!
SUPPORT. What memory holds at power-on: the reads of its three parts, and its canonical form.
-/

namespace Sys2Proof.Machine

/-- A read of two parts in sequence is a read of the one that may list the address. -/
theorem Memory.read_append {m n : Memory} {a : Nat} (h : ∀ c ∈ m, a ≠ c.1) : Memory.read (m ++ n) a = n.read a := by
  induction m with
  | nil => rfl
  | cons c m ih =>
    rw [List.cons_append, Memory.read_cons, if_neg (h c (by simp)), ih fun d hd => h d (by simp [hd])]

theorem Memory.read_append_left {m n : Memory} {a : Nat} (h : ∀ c ∈ n, a ≠ c.1) :
    Memory.read (m ++ n) a = m.read a := by
  induction m with
  | nil => exact Memory.read_eq_unlisted h
  | cons c m ih => rw [List.cons_append, Memory.read_cons, Memory.read_cons, ih]

theorem Memory.mem_within {start size : Nat} {m : Memory} {c : Host.Cell} (h : c ∈ m.within start size) :
    c ∈ m ∧ start ≤ c.1 ∧ c.1 < start + size := by
  simpa [Memory.within] using h

/-- Inside the range, the cells in it read as the whole memory does. -/
theorem Memory.read_within {start size a : Nat} {m : Memory} (h : start ≤ a) (h' : a < start + size) :
    (m.within start size).read a = m.read a := by
  induction m with
  | nil => rfl
  | cons c m ih =>
    unfold Memory.within at ih ⊢
    rw [List.filter_cons, Memory.read_cons]
    split
    · rw [Memory.read_cons, ih]
    · next hc =>
      rw [ih, if_neg]
      rintro rfl
      simp [h, h'] at hc

theorem Memory.within_wf {start size : Nat} {m : Memory} (h : m.wf) : (m.within start size).wf :=
  ⟨h.1.filter _, fun c hc => h.2 c (Memory.mem_within hc).1⟩

theorem mem_cellsFrom {a : Nat} {l : List Byte} {c : Host.Cell} (h : c ∈ cellsFrom a l) :
    a ≤ c.1 ∧ c.1 < a + l.length ∧ c.2 ≠ Config.unlistedByte := by
  induction l generalizing a with
  | nil => cases h
  | cons b l ih =>
    simp only [cellsFrom, Memory.entry] at h
    rw [List.length_cons]
    split at h
    · have := ih h
      exact ⟨by omega, by omega, this.2.2⟩
    · next hb =>
      rcases List.mem_cons.1 h with rfl | h
      · exact ⟨Nat.le_refl a, by omega, hb⟩
      · have := ih h
        exact ⟨by omega, by omega, this.2.2⟩

theorem cellsFrom_wf (a : Nat) (l : List Byte) : (cellsFrom a l).wf := by
  refine ⟨?_, fun c hc => (mem_cellsFrom hc).2.2⟩
  induction l generalizing a with
  | nil => exact .nil
  | cons b l ih =>
    simp only [cellsFrom, Memory.entry]
    split
    · exact ih _
    · exact .cons (fun d hd => (mem_cellsFrom hd).1) (ih _)

/-- Byte `i` of the image, at its address. -/
theorem read_cellsFrom {a i : Nat} {l : List Byte} (h : i < l.length) :
    Memory.read (cellsFrom a l) (a + i) = l.getD i Config.unlistedByte := by
  induction l generalizing a i with
  | nil => cases h
  | cons b l ih =>
    have tail : ∀ c ∈ cellsFrom (a + 1) l, a ≠ c.1 := fun c hc => by
      have := (mem_cellsFrom hc).1
      omega
    rw [cellsFrom, Memory.read_entry _ _ _ _ tail]
    cases i with
    | zero => simp
    | succ i =>
      rw [if_neg (by omega), show a + (i + 1) = a + 1 + i by omega, ih (Nat.lt_of_succ_lt_succ h), List.getD_cons_succ]

/-- Power-on memory is in the canonical form if the contents given for RAM and SCRATCH are. -/
theorem powerOnMemory_wf {p : ResetParams} (hr : p.ram.wf) (hs : p.scratch.wf) : (powerOnMemory p).wf := by
  have ram : ∀ c ∈ p.ram.within 0 Config.ramSize, c.1 < Config.ramSize := fun c hc => by
    simpa using (Memory.mem_within hc).2.2
  have scratch : ∀ c ∈ p.scratch.within Config.scratchStart Config.scratchSize,
      Config.scratchStart ≤ c.1 ∧ c.1 < Config.scratchStart + Config.scratchSize := fun c hc => (Memory.mem_within hc).2
  have bios : ∀ c ∈ cellsFrom Config.biosStart p.bios, Config.biosStart ≤ c.1 := fun c hc => (mem_cellsFrom hc).1
  have rwf := Memory.within_wf (start := 0) (size := Config.ramSize) hr
  have swf := Memory.within_wf (start := Config.scratchStart) (size := Config.scratchSize) hs
  have bwf := cellsFrom_wf Config.biosStart p.bios
  simp only [Config.ramSize, Config.scratchStart, Config.scratchSize, Config.biosStart] at *
  refine ⟨List.pairwise_append.2 ⟨rwf.1, List.pairwise_append.2 ⟨swf.1, bwf.1, fun c hc d hd => ?_⟩, fun c hc d hd => ?_⟩,
    fun c hc => ?_⟩
  · have := scratch c hc
    have := bios d hd
    omega
  · have := ram c hc
    rcases List.mem_append.1 hd with h | h
    · have := scratch d h
      omega
    · have := bios d h
      omega
  · rcases List.mem_append.1 hc with h | h
    · exact rwf.2 c h
    · rcases List.mem_append.1 h with h | h
      · exact swf.2 c h
      · exact bwf.2 c h

/-- Power-on memory lists nothing outside the three byte arrays, for an image of the full length. -/
theorem powerOnMemory_in_arrays {p : ResetParams} (h : p.bios.length = Config.biosSize) :
    ∀ c ∈ powerOnMemory p, Backed c.1 := by
  intro c hc
  rcases List.mem_append.1 hc with hc | hc
  · exact .inl (by simpa using (Memory.mem_within hc).2.2)
  · rcases List.mem_append.1 hc with hc | hc
    · exact .inr (.inl (Memory.mem_within hc).2)
    · have := mem_cellsFrom hc
      exact .inr (.inr ⟨this.1, by rw [← h]; exact this.2.1⟩)

end Sys2Proof.Machine
end

