-- ==== Sys2Proof/Tests/Slice0.lean ====
section
/-!
SUPPORT. The model's own tests: ill-formed terms refused, a word of every constructor decoded, one step of every
instruction on a small state, and for every obligation with hypotheses a concrete state and operands that meet them.
Words and expected results are those of spec/95_test_vectors.md (V- names), of the rules' own examples, or written out
from the encodings of spec/30_encoding.md.
-/

namespace Sys2Proof.Tests

open Sys2Proof
open Sys2Proof.Machine

/-! ## Helpers -/

/-- The outcome is a next state of which `p` holds. -/
def answers (o : Res State) (p : State → Bool) : Bool :=
  match o with
  | .next t => p t
  | _ => false

/-- The outcome is this fault. -/
def stops (o : Res State) (f : Fault) : Bool :=
  match o with
  | .fault e => e == f
  | _ => false

/-- The next state, where there is one. -/
def out (o : Res State) : State :=
  match o with
  | .next t => t
  | _ => State.reset

theorem next_out {o : Res State} (h : answers o (fun _ => true) = true) : o = .next (out o) := by
  cases o <;> first | rfl | cases h

/-- The outcome is this word. -/
def gives (o : Res Word) (v : Word) : Bool :=
  match o with
  | .next u => u == v
  | _ => false

theorem next_of_gives {o : Res Word} {v : Word} (h : gives o v = true) : o = .next v := by
  cases o with
  | next u => rw [eq_of_beq h]
  | fault e => cases h
  | refused r => cases h

theorem fault_of_stops {o : Res State} {f : Fault} (h : stops o f = true) : o = .fault f := by
  cases o with
  | next u => cases h
  | fault e => rw [eq_of_beq h]
  | refused r => cases h

/-- `s` with registers preset in both arrays. -/
def regs (l : List (RegIdx × Word)) (s : State) : State :=
  l.foldl (fun s p => { s with gpr := s.gpr.set p.1 p.2, outGpr := s.outGpr.set p.1 p.2 }) s

/-- `s` with a word in memory at a physical address. -/
def word (a : Nat) (w : Word) (s : State) : State := { s with mem := s.mem.store a .word w }

/-- One step of `s` on the word `w`. -/
def one (s : State) (w : Nat) : Res State := step (s.withFetchWord 32 w)

/-- The reset state with `r1 = a` and `r2 = b`. -/
def pair (a b : Word) : State := regs [(1, a), (2, b)] State.reset

/-- The next step of `s` fetches the word `w`, which decodes to `i`. -/
def fetches (s : State) (w : Word) (i : Instr) : Bool :=
  !s.shutdown && (aligned s.pc .word && (gives (fetch (capturePc s)) w && decide (decode w = .ok i)))

theorem runs_of_fetches {s : State} {w : Word} {i : Instr} (h : fetches s w i = true) : Runs s i := by
  simp only [fetches, Bool.and_eq_true, Bool.not_eq_true', decide_eq_true_eq] at h
  exact ⟨h.1, h.2.1, w, next_of_gives h.2.2.1, h.2.2.2⟩

/-! ## WellFormed: a term for the one check, which it refuses, and the same term mended -/

theorem test_bltz_linking_selector_ill_formed : ¬(Instr.bltz 1 0b1000 4).WellFormed := by decide
theorem test_bgez_linking_selector_ill_formed : ¬(Instr.bgez 1 0b1000 4).WellFormed := by decide
theorem test_bltz_other_selector_well_formed : (Instr.bltz 1 0b1001 4).WellFormed := by decide

/-! ## Decode: every constructor -/

/-- Written bit by bit from 30_encoding.md R131, R132: `op rs rt rd shamt funct`, `op rs rt imm`, `op target`. -/
theorem test_decode_bit_by_bit :
    decode (0b000000#6 ++ 0b00001#5 ++ 0b00010#5 ++ 0b00011#5 ++ 0b00000#5 ++ 0b100000#6) = .ok (.add 3 1 2) ∧
    decode (0b000000#6 ++ 0b00000#5 ++ 0b00010#5 ++ 0b00011#5 ++ 0b11111#5 ++ 0b000000#6) = .ok (.sll 3 2 31) ∧
    decode (0b001010#6 ++ 0b00001#5 ++ 0b00011#5 ++ 0xFFFF#16) = .ok (.slti 3 1 0xFFFF) ∧
    decode (0b000000#6 ++ 0b00001#5 ++ 0b00010#5 ++ 0b00000#5 ++ 0b00000#5 ++ 0b011010#6) = .ok (.div 1 2) ∧
    decode (0b000001#6 ++ 0b00001#5 ++ 0b1000#4 ++ 0b1#1 ++ 0x0004#16) = .ok (.bgezal 1 4) ∧
    decode (0b000011#6 ++ 0x3F00040#26) = .ok (.jal 0x3F00040) ∧
    decode (0b010000#6 ++ 0b00100#5 ++ 0b00001#5 ++ 0b01100#5 ++ 0b00000000000#11) = .ok (.mtc0 1 12) ∧
    decode (0b000000#6 ++ 0xABCDE#20 ++ 0b001101#6) = .ok (.brk 0xABCDE) ∧
    decode (0b100011#6 ++ 0b00001#5 ++ 0b00010#5 ++ 0xFFFC#16) = .ok (.lw 2 1 0xFFFC) := by decide

theorem test_decode_register_alu :
    decode 0x00221820#32 = .ok (.add 3 1 2) ∧
    decode 0x00221821#32 = .ok (.addu 3 1 2) ∧
    decode 0x00221822#32 = .ok (.sub 3 1 2) ∧
    decode 0x00221823#32 = .ok (.subu 3 1 2) ∧
    decode 0x00221824#32 = .ok (.and 3 1 2) ∧
    decode 0x00221825#32 = .ok (.or 3 1 2) ∧
    decode 0x00221826#32 = .ok (.xor 3 1 2) ∧
    decode 0x00221827#32 = .ok (.nor 3 1 2) ∧
    decode 0x0022182A#32 = .ok (.slt 3 1 2) ∧
    decode 0x0022182B#32 = .ok (.sltu 3 1 2) := by decide

theorem test_decode_shifts :
    decode 0x00021840#32 = .ok (.sll 3 2 1) ∧
    decode 0x00021902#32 = .ok (.srl 3 2 4) ∧
    decode 0x00021FC3#32 = .ok (.sra 3 2 31) ∧
    decode 0x00221804#32 = .ok (.sllv 3 2 1) ∧
    decode 0x00221806#32 = .ok (.srlv 3 2 1) ∧
    decode 0x00221807#32 = .ok (.srav 3 2 1) := by decide

theorem test_decode_immediate_alu :
    decode 0x20230001#32 = .ok (.addi 3 1 1) ∧
    decode 0x24238000#32 = .ok (.addiu 3 1 0x8000) ∧
    decode 0x2823FFFF#32 = .ok (.slti 3 1 0xFFFF) ∧
    decode 0x2C230000#32 = .ok (.sltiu 3 1 0) ∧
    decode 0x30238001#32 = .ok (.andi 3 1 0x8001) ∧
    decode 0x34238001#32 = .ok (.ori 3 1 0x8001) ∧
    decode 0x3823FFFF#32 = .ok (.xori 3 1 0xFFFF) ∧
    decode 0x3C038001#32 = .ok (.lui 3 0x8001) := by decide

theorem test_decode_muldiv :
    decode 0x00220018#32 = .ok (.mult 1 2) ∧
    decode 0x00220019#32 = .ok (.multu 1 2) ∧
    decode 0x0022001A#32 = .ok (.div 1 2) ∧
    decode 0x0022001B#32 = .ok (.divu 1 2) ∧
    decode 0x00001810#32 = .ok (.mfhi 3) ∧
    decode 0x00001812#32 = .ok (.mflo 3) ∧
    decode 0x00200011#32 = .ok (.mthi 1) ∧
    decode 0x00200013#32 = .ok (.mtlo 1) := by decide

theorem test_decode_branches :
    decode 0x10220003#32 = .ok (.beq 1 2 3) ∧
    decode 0x1422FFFF#32 = .ok (.bne 1 2 0xFFFF) ∧
    decode 0x18200004#32 = .ok (.blez 1 4) ∧
    decode 0x1C200004#32 = .ok (.bgtz 1 4) ∧
    decode 0x04200004#32 = .ok (.bltz 1 0 4) ∧
    decode 0x04210004#32 = .ok (.bgez 1 0 4) ∧
    decode 0x04300004#32 = .ok (.bltzal 1 4) ∧
    decode 0x04310004#32 = .ok (.bgezal 1 4) ∧
    decode 0x04220004#32 = .ok (.bltz 1 1 4) ∧
    decode 0x04330004#32 = .ok (.bgez 1 0b1001 4) := by decide

theorem test_decode_jumps :
    decode 0x0BF00040#32 = .ok (.j 0x3F00040) ∧
    decode 0x0FF00040#32 = .ok (.jal 0x3F00040) ∧
    decode 0x00200008#32 = .ok (.jr 1) ∧
    decode 0x00201809#32 = .ok (.jalr 3 1) := by decide

theorem test_decode_coprocessor :
    decode 0x40026000#32 = .ok (.mfc0 2 12) ∧
    decode 0x40816000#32 = .ok (.mtc0 1 12) ∧
    decode 0x42000010#32 = .ok (.rfe) ∧
    decode 0x44000000#32 = .ok (.cop1 0) ∧
    decode 0x48000000#32 = .ok (.cop2 0) ∧
    decode 0x4C000000#32 = .ok (.cop3 0) ∧
    decode 0xC0000000#32 = .ok (.lwc0 0 0 0) ∧
    decode 0xC4000000#32 = .ok (.lwc1 0 0 0) ∧
    decode 0xC8000000#32 = .ok (.lwc2 0 0 0) ∧
    decode 0xCC000000#32 = .ok (.lwc3 0 0 0) ∧
    decode 0xE0000000#32 = .ok (.swc0 0 0 0) ∧
    decode 0xE4000000#32 = .ok (.swc1 0 0 0) ∧
    decode 0xE8000000#32 = .ok (.swc2 0 0 0) ∧
    decode 0xEC000000#32 = .ok (.swc3 0 0 0) := by decide

theorem test_decode_traps :
    decode 0x0000000C#32 = .ok (.syscall 0) ∧
    decode 0x03FFFFCC#32 = .ok (.syscall 0xFFFFF) ∧
    decode 0x0000000D#32 = .ok (.brk 0) := by decide

theorem test_decode_loads_and_stores :
    decode 0x80220003#32 = .ok (.lb 2 1 3) ∧
    decode 0x90220003#32 = .ok (.lbu 2 1 3) ∧
    decode 0x84220002#32 = .ok (.lh 2 1 2) ∧
    decode 0x94220002#32 = .ok (.lhu 2 1 2) ∧
    decode 0x8C22FFFC#32 = .ok (.lw 2 1 0xFFFC) ∧
    decode 0x88220001#32 = .ok (.lwl 2 1 1) ∧
    decode 0x98220001#32 = .ok (.lwr 2 1 1) ∧
    decode 0xA0220003#32 = .ok (.sb 2 1 3) ∧
    decode 0xA4220002#32 = .ok (.sh 2 1 2) ∧
    decode 0xAC220000#32 = .ok (.sw 2 1 0) ∧
    decode 0xA8220001#32 = .ok (.swl 2 1 1) ∧
    decode 0xB8220002#32 = .ok (.swr 2 1 2) := by decide

/-- Illegal words are rejected by name, and fewer than four bytes are no instruction (V-TRAP-4, V-COP-9). -/
theorem test_decode_rejects :
    decode 0x50000000#32 = .error (.unassignedOpcode 0x14) ∧
    decode 0xFFFFFFFF#32 = .error (.unassignedOpcode 0x3F) ∧
    decode 0x0000000A#32 = .error (.unassignedFunct 0x0A) ∧
    decode 0x40400000#32 = .error (.unassignedCop0 2) ∧
    decodeBytes [0x00, 0x00, 0x01] = .error .truncated := by decide

/-- Bytes lie low byte first, and what follows the word is left (20_memory.md R90). -/
theorem test_decode_bytes :
    decodeBytes [0x13, 0x00, 0x08, 0x3C, 0xAA] = .ok (.lui 8 0x0013, [0xAA]) := by decide

/-! ## One step of every instruction -/

/-- V-SRC-1 -/
theorem test_boot_fetch :
    answers (one (State.reset) 0x3C080013) (fun t => decide (t.pc = 0xBFC00004) && decide (t.nextPc = 0xBFC00008) && decide (t.x 8 = 0x00130000)) = true := by decide

/-- V-ALU-2 -/
theorem test_add :
    answers (one (pair 0xFFFFFFFF 1) 0x00221820) (fun t => decide (t.x 3 = 0)) = true := by decide

/-- V-ALU-1 -/
theorem test_add_overflow :
    answers (one (regs [(3, 0x33333333)] (pair 0x7FFFFFFF 1)) 0x00221820) (fun t => decide (t.x 3 = 0x33333333) && decide (t.cause = 0x30) && decide (t.pc = 0x80000080) && decide (t.epc = 0xBFC00000)) = true := by decide

/-- V-ALU-4 -/
theorem test_addu :
    answers (one (pair 0xFFFFFFFF 2) 0x00221821) (fun t => decide (t.x 3 = 1)) = true := by decide

/-- V-ALU-5 -/
theorem test_sub :
    answers (one (pair 5 7) 0x00221822) (fun t => decide (t.x 3 = 0xFFFFFFFE)) = true := by decide

/-- V-ALU-6 -/
theorem test_sub_overflow :
    answers (one (pair 0 0x80000000) 0x00221822) (fun t => decide (t.cause = 0x30)) = true := by decide

/-- V-ALU-7 -/
theorem test_subu :
    answers (one (pair 0x80000000 1) 0x00221823) (fun t => decide (t.x 3 = 0x7FFFFFFF)) = true := by decide

/-- V-ALU-8 -/
theorem test_and :
    answers (one (pair 0xF0F0FF00 0x0FF0F0F0) 0x00221824) (fun t => decide (t.x 3 = 0x00F0F000)) = true := by decide

/-- V-ALU-8 -/
theorem test_or :
    answers (one (pair 0xF0F0FF00 0x0FF0F0F0) 0x00221825) (fun t => decide (t.x 3 = 0xFFF0FFF0)) = true := by decide

/-- V-ALU-8 -/
theorem test_xor :
    answers (one (pair 0xF0F0FF00 0x0FF0F0F0) 0x00221826) (fun t => decide (t.x 3 = 0xFF000FF0)) = true := by decide

/-- V-ALU-8 -/
theorem test_nor :
    answers (one (pair 0xF0F0FF00 0x0FF0F0F0) 0x00221827) (fun t => decide (t.x 3 = 0x000F000F)) = true := by decide

/-- V-ALU-10 -/
theorem test_slt :
    answers (one (pair 0x80000000 0x7FFFFFFF) 0x0022182A) (fun t => decide (t.x 3 = 1)) = true := by decide

/-- V-ALU-11 -/
theorem test_sltu :
    answers (one (pair 0xFFFFFFFF 1) 0x0022182B) (fun t => decide (t.x 3 = 0)) = true := by decide

/-- V-ALU-12 -/
theorem test_sll :
    answers (one (pair 0 0x80000001) 0x00021840) (fun t => decide (t.x 3 = 2)) = true := by decide

/-- V-ALU-13 -/
theorem test_srl :
    answers (one (pair 0 0x80000000) 0x00021902) (fun t => decide (t.x 3 = 0x08000000)) = true := by decide

/-- V-ALU-14 -/
theorem test_sra :
    answers (one (pair 0 0x80000000) 0x00021903) (fun t => decide (t.x 3 = 0xF8000000)) = true := by decide

/-- V-ALU-15 -/
theorem test_sllv :
    answers (one (pair 0x21 1) 0x00221804) (fun t => decide (t.x 3 = 2)) = true := by decide

/-- V-ALU-16 -/
theorem test_srlv :
    answers (one (pair 0xFFFFFFE4 0x80000000) 0x00221806) (fun t => decide (t.x 3 = 0x08000000)) = true := by decide

/-- V-ALU-17 -/
theorem test_srav :
    answers (one (pair 0x20 0xF0000000) 0x00221807) (fun t => decide (t.x 3 = 0xF0000000)) = true := by decide

/-- V-ALU-18 -/
theorem test_register_zero :
    answers (one (pair 1 2) 0x00220021) (fun t => decide (t.x 0 = 0) && decide (t.out 0 = 0)) = true := by decide

/-- V-IMM-3 -/
theorem test_addi :
    answers (one (pair 0x7FFF8000 0) 0x20237FFF) (fun t => decide (t.x 3 = 0x7FFFFFFF)) = true := by decide

/-- V-IMM-2 -/
theorem test_addi_overflow :
    answers (one (pair 0x80000000 0) 0x2023FFFF) (fun t => decide (t.cause = 0x30)) = true := by decide

/-- V-IMM-4 -/
theorem test_addiu :
    answers (one (pair 0 0) 0x24238000) (fun t => decide (t.x 3 = 0xFFFF8000)) = true := by decide

/-- V-IMM-5 -/
theorem test_slti :
    answers (one (pair 0xFFFFFFFE 0) 0x2823FFFF) (fun t => decide (t.x 3 = 1)) = true := by decide

/-- V-IMM-7 -/
theorem test_sltiu :
    answers (one (pair 0x0000FFFF 0) 0x2C23FFFF) (fun t => decide (t.x 3 = 1)) = true := by decide

/-- V-IMM-9 -/
theorem test_andi :
    answers (one (pair 0xFFFFFFFF 0) 0x30238001) (fun t => decide (t.x 3 = 0x8001)) = true := by decide

/-- V-IMM-10 -/
theorem test_ori :
    answers (one (pair 0xFFFF0000 0) 0x34238001) (fun t => decide (t.x 3 = 0xFFFF8001)) = true := by decide

/-- V-IMM-11 -/
theorem test_xori :
    answers (one (pair 0xFFFFFFFF 0) 0x3823FFFF) (fun t => decide (t.x 3 = 0xFFFF0000)) = true := by decide

/-- V-IMM-12 -/
theorem test_lui :
    answers (one (pair 0 0) 0x3C038001) (fun t => decide (t.x 3 = 0x80010000)) = true := by decide

/-- V-MD-1 -/
theorem test_mult :
    answers (one (pair 0xFFFFFFFE 3) 0x00220018) (fun t => decide (t.hi = 0xFFFFFFFF) && decide (t.lo = 0xFFFFFFFA)) = true := by decide

/-- V-MD-4 -/
theorem test_multu :
    answers (one (pair 0xFFFFFFFF 0xFFFFFFFF) 0x00220019) (fun t => decide (t.hi = 0xFFFFFFFE) && decide (t.lo = 1)) = true := by decide

/-- V-MD-6 -/
theorem test_div :
    answers (one (pair 0xFFFFFFF9 2) 0x0022001A) (fun t => decide (t.hi = 0xFFFFFFFF) && decide (t.lo = 0xFFFFFFFD)) = true := by decide

/-- V-MD-7 -/
theorem test_div_by_zero :
    answers (one (pair 0xFFFFFFFB 0) 0x0022001A) (fun t => decide (t.hi = 0xFFFFFFFB) && decide (t.lo = 1)) = true := by decide

/-- V-MD-10 -/
theorem test_divu :
    answers (one (pair 0xFFFFFFF9 2) 0x0022001B) (fun t => decide (t.hi = 1) && decide (t.lo = 0x7FFFFFFC)) = true := by decide

/-- V-MD-11 -/
theorem test_divu_by_zero :
    answers (one (pair 0x1234 0) 0x0022001B) (fun t => decide (t.hi = 0x1234) && decide (t.lo = 0xFFFFFFFF)) = true := by decide

/-- V-MD-12 -/
theorem test_mfhi :
    answers (one ({ State.reset with hi := 0xCAFE0001, lo := 0xBEEF0002 }) 0x00001810) (fun t => decide (t.x 3 = 0xCAFE0001)) = true := by decide

/-- V-MD-12 -/
theorem test_mflo :
    answers (one ({ State.reset with hi := 0xCAFE0001, lo := 0xBEEF0002 }) 0x00001812) (fun t => decide (t.x 3 = 0xBEEF0002)) = true := by decide

/-- V-MD-13 -/
theorem test_mthi :
    answers (one ({ pair 0x55 0 with lo := 0x22222222 }) 0x00200011) (fun t => decide (t.hi = 0x55) && decide (t.lo = 0x22222222)) = true := by decide

/-- V-MD-13 -/
theorem test_mtlo :
    answers (one ({ pair 0x55 0 with hi := 0x11111111 }) 0x00200013) (fun t => decide (t.hi = 0x11111111) && decide (t.lo = 0x55)) = true := by decide

/-- V-BR-1 -/
theorem test_beq_taken :
    answers (one (pair 5 5) 0x10220003) (fun t => decide (t.nextPc = 0xBFC00010) && decide (t.branchTaken = true) && decide (t.pc = 0xBFC00004)) = true := by decide

/-- V-BR-2 -/
theorem test_beq_not_taken :
    answers (one (pair 5 6) 0x10220003) (fun t => decide (t.nextPc = 0xBFC00008) && decide (t.branchTaken = false)) = true := by decide

/-- V-BR-3 -/
theorem test_bne :
    answers (one (pair 5 6) 0x1422FFFF) (fun t => decide (t.nextPc = 0xBFC00000) && decide (t.branchTaken = true)) = true := by decide

/-- V-BR-5 -/
theorem test_blez_zero :
    answers (one (pair 0 0) 0x18200004) (fun t => decide (t.nextPc = 0xBFC00014) && decide (t.branchTaken = true)) = true := by decide

/-- V-BR-5 -/
theorem test_blez_positive :
    answers (one (pair 1 0) 0x18200004) (fun t => decide (t.nextPc = 0xBFC00008) && decide (t.branchTaken = false)) = true := by decide

/-- V-BR-6 -/
theorem test_bgtz_zero :
    answers (one (pair 0 0) 0x1C200004) (fun t => decide (t.nextPc = 0xBFC00008) && decide (t.branchTaken = false)) = true := by decide

/-- V-BR-6 -/
theorem test_bgtz_positive :
    answers (one (pair 1 0) 0x1C200004) (fun t => decide (t.nextPc = 0xBFC00014) && decide (t.branchTaken = true)) = true := by decide

/-- V-BR-7 -/
theorem test_bltz :
    answers (one (pair 0xFFFFFFFF 0) 0x04200004) (fun t => decide (t.nextPc = 0xBFC00014) && decide (t.branchTaken = true)) = true := by decide

/-- V-BR-11 -/
theorem test_bltz_any_rt :
    answers (one (pair 0xFFFFFFFF 0) 0x043E0004) (fun t => decide (t.nextPc = 0xBFC00014) && decide (t.branchTaken = true) && decide (t.x 31 = 0)) = true := by decide

/-- V-BR-8 -/
theorem test_bgez :
    answers (one (pair 0 0) 0x04210004) (fun t => decide (t.nextPc = 0xBFC00014) && decide (t.branchTaken = true)) = true := by decide

/-- V-BR-9 -/
theorem test_bltzal_not_taken :
    answers (one (pair 1 0) 0x04300004) (fun t => decide (t.nextPc = 0xBFC00008) && decide (t.branchTaken = false) && decide (t.x 31 = 0xBFC00008)) = true := by decide

/-- V-BR-10 -/
theorem test_bgezal_taken :
    answers (one (pair 0 0) 0x04310004) (fun t => decide (t.nextPc = 0xBFC00014) && decide (t.branchTaken = true) && decide (t.x 31 = 0xBFC00008)) = true := by decide

/-- V-BR-12 -/
theorem test_j :
    answers (one (State.reset) 0x0BF00040) (fun t => decide (t.nextPc = 0xBFC00100) && decide (t.branchTaken = true)) = true := by decide

/-- V-BR-13 -/
theorem test_jal :
    answers (one (State.reset) 0x0FF00040) (fun t => decide (t.nextPc = 0xBFC00100) && decide (t.branchTaken = true) && decide (t.x 31 = 0xBFC00008)) = true := by decide

/-- V-BR-14 -/
theorem test_jr :
    answers (one (pair 0x80001234 0) 0x00200008) (fun t => decide (t.nextPc = 0x80001234) && decide (t.branchTaken = true)) = true := by decide

/-- V-BR-16 -/
theorem test_jalr :
    answers (one (pair 0x80002000 0) 0x00200809) (fun t => decide (t.nextPc = 0x80002000) && decide (t.branchTaken = true) && decide (t.x 1 = 0xBFC00008)) = true := by decide

/-- V-COP-1 -/
theorem test_mfc0 :
    answers (one ({ pair 0 0x22222222 with sr := 0x00400001 }) 0x40026000) (fun t => decide (t.pending = ⟨2, 0x00400001⟩) && decide (t.x 2 = 0x22222222)) = true := by decide

/-- V-COP-3 -/
theorem test_mfc0_no_read_path : stops (one (State.reset) 0x40027800) (.unimplemented []) = true := by decide

/-- V-COP-4 -/
theorem test_mtc0_status :
    answers (one (pair 0x00410000 0) 0x40816000) (fun t => decide (t.sr = 0x00410000)) = true := by decide

/-- V-COP-5 -/
theorem test_mtc0_ignored :
    answers (one ({ pair 0xFFFFFFFF 0 with cause := 0x24 }) 0x40816800) (fun t => decide (t.cause = 0x24) && decide (t.sr = 0)) = true := by decide

/-- V-COP-7 -/
theorem test_rfe :
    answers (one ({ State.reset with sr := 0x00010024 }) 0x42000010) (fun t => decide (t.sr = 0x00010029) && decide (t.pc = 0xBFC00004)) = true := by decide

/-- V-COP-10 -/
theorem test_cop1 :
    answers (one ({ State.reset with sr := 0x00010000 }) 0x44000000) (fun t => decide (t.cause = 0x2C) && decide (t.epc = 0xBFC00000)) = true := by decide

/-- V-COP-10 -/
theorem test_cop3 :
    answers (one ({ State.reset with sr := 0x00010000 }) 0x4C000000) (fun t => decide (t.cause = 0x2C) && decide (t.epc = 0xBFC00000)) = true := by decide

/-- V-COP-10 -/
theorem test_lwc0 :
    answers (one ({ State.reset with sr := 0x00010000 }) 0xC0000000) (fun t => decide (t.cause = 0x2C) && decide (t.epc = 0xBFC00000)) = true := by decide

/-- V-COP-10 -/
theorem test_lwc1 :
    answers (one ({ State.reset with sr := 0x00010000 }) 0xC4000000) (fun t => decide (t.cause = 0x2C) && decide (t.epc = 0xBFC00000)) = true := by decide

/-- V-COP-10 -/
theorem test_lwc3 :
    answers (one ({ State.reset with sr := 0x00010000 }) 0xCC000000) (fun t => decide (t.cause = 0x2C) && decide (t.epc = 0xBFC00000)) = true := by decide

/-- V-COP-10 -/
theorem test_swc0 :
    answers (one ({ State.reset with sr := 0x00010000 }) 0xE0000000) (fun t => decide (t.cause = 0x2C) && decide (t.epc = 0xBFC00000)) = true := by decide

/-- V-COP-10 -/
theorem test_swc1 :
    answers (one ({ State.reset with sr := 0x00010000 }) 0xE4000000) (fun t => decide (t.cause = 0x2C) && decide (t.epc = 0xBFC00000)) = true := by decide

/-- V-COP-10 -/
theorem test_swc3 :
    answers (one ({ State.reset with sr := 0x00010000 }) 0xEC000000) (fun t => decide (t.cause = 0x2C) && decide (t.epc = 0xBFC00000)) = true := by decide

/-- V-COP-11 -/
theorem test_cop2_halts : stops (one (State.reset) 0x48000000) (.unimplemented []) = true := by decide

/-- V-COP-11 -/
theorem test_lwc2_halts : stops (one (State.reset) 0xC8000000) (.unimplemented []) = true := by decide

/-- V-COP-11 -/
theorem test_swc2_halts : stops (one (State.reset) 0xE8000000) (.unimplemented []) = true := by decide

/-- V-TRAP-2 -/
theorem test_syscall :
    answers (one (State.reset) 0x03FFFFCC) (fun t => decide (t.cause = 0x20) && decide (t.epc = 0xBFC00000) && decide (t.pc = 0x80000080) && decide (t.nextPc = 0x80000084)) = true := by decide

/-- V-TRAP-3 -/
theorem test_break :
    answers (one ({ State.reset with sr := 0x00400003 }) 0x0000000D) (fun t => decide (t.cause = 0x24) && decide (t.sr = 0x0040000C) && decide (t.pc = 0xBFC00180)) = true := by decide

/-- V-TRAP-4 -/
theorem test_illegal_word :
    answers (one (State.reset) 0xFFFFFFFF) (fun t => decide (t.cause = 0x28) && decide (t.epc = 0xBFC00000)) = true := by decide

/-- V-LS-1 -/
theorem test_lb :
    answers (one (word 0x100 0x80FF7F01 (pair 0x100 0xDEADBEEF)) 0x80220003) (fun t => decide (t.pending = ⟨2, 0xFFFFFF80⟩) && decide (t.x 2 = 0xDEADBEEF)) = true := by decide

/-- V-LS-3 -/
theorem test_lbu :
    answers (one (word 0x100 0x80FF7F01 (pair 0x100 0xDEADBEEF)) 0x90220003) (fun t => decide (t.pending = ⟨2, 0x80⟩)) = true := by decide

/-- V-LS-4 -/
theorem test_lh :
    answers (one (word 0x100 0x80FF7F01 (pair 0x100 0xDEADBEEF)) 0x84220002) (fun t => decide (t.pending = ⟨2, 0xFFFF80FF⟩)) = true := by decide

/-- V-LS-7 -/
theorem test_lh_misaligned :
    answers (one (word 0x100 0x80FF7F01 (pair 0x100 0xDEADBEEF)) 0x84220001) (fun t => decide (t.cause = 0x10) && decide (t.pending = ⟨0, 0⟩)) = true := by decide

/-- V-LS-6 -/
theorem test_lhu :
    answers (one (word 0x100 0x80FF7F01 (pair 0x100 0xDEADBEEF)) 0x94220002) (fun t => decide (t.pending = ⟨2, 0x80FF⟩)) = true := by decide

/-- V-LS-11, V-LS-12 -/
theorem test_lw :
    answers (one (regs [(1, 0xA0000104)] (word 0x100 0x80FF7F01 (pair 0x100 0xDEADBEEF))) 0x8C22FFFC) (fun t => decide (t.pending = ⟨2, 0x80FF7F01⟩)) = true := by decide

/-- V-LS-10 -/
theorem test_lw_misaligned :
    answers (one (word 0x100 0x80FF7F01 (pair 0x100 0xDEADBEEF)) 0x8C220002) (fun t => decide (t.cause = 0x10)) = true := by decide

/-- V-LS-14 -/
theorem test_lwl :
    answers (one (word 0x100 0x11223344 (pair 0x100 0xAABBCCDD)) 0x88220001) (fun t => decide (t.pending = ⟨2, 0x3344CCDD⟩)) = true := by decide

/-- V-LS-18 -/
theorem test_lwr :
    answers (one (word 0x100 0x11223344 (pair 0x100 0xAABBCCDD)) 0x98220001) (fun t => decide (t.pending = ⟨2, 0xAA112233⟩)) = true := by decide

/-- V-LS-22 -/
theorem test_sb :
    answers (one (word 0x100 0x11223344 (pair 0x100 0xAABBCCDD)) 0xA0220001) (fun t => decide (t.mem.load 0x100 .word = 0x1122DD44)) = true := by decide

/-- V-LS-26 -/
theorem test_sh :
    answers (one (word 0x100 0x11223344 (pair 0x100 0xAABBCCDD)) 0xA4220002) (fun t => decide (t.mem.load 0x100 .word = 0xCCDD3344)) = true := by decide

/-- V-LS-27 -/
theorem test_sh_misaligned :
    answers (one (word 0x100 0x11223344 (pair 0x100 0xAABBCCDD)) 0xA4220001) (fun t => decide (t.mem.load 0x100 .word = 0x11223344) && decide (t.cause = 0x14)) = true := by decide

/-- V-LS-28 -/
theorem test_sw :
    answers (one (word 0x100 0x11223344 (pair 0x100 0xAABBCCDD)) 0xAC220000) (fun t => decide (t.mem.load 0x100 .word = 0xAABBCCDD)) = true := by decide

/-- V-LS-40 -/
theorem test_sw_isolated :
    answers (one ({ word 0x100 0x11223344 (pair 0x100 0xAABBCCDD) with sr := 0x00010000 }) 0xAC220000) (fun t => decide (t.mem.load 0x100 .word = 0x11223344) && decide (t.cause = 0)) = true := by decide

/-- V-LS-32 -/
theorem test_swl :
    answers (one (word 0x100 0x11223344 (pair 0x100 0xAABBCCDD)) 0xA8220001) (fun t => decide (t.mem.load 0x100 .word = 0x1122AABB)) = true := by decide

/-- V-LS-36 -/
theorem test_swr :
    answers (one (word 0x100 0x11223344 (pair 0x100 0xAABBCCDD)) 0xB8220001) (fun t => decide (t.mem.load 0x100 .word = 0xBBCCDD44)) = true := by decide

/-! ## The cycle, exceptions and halts -/

/-- V-EXC-1, the step of the delay slot -/
theorem test_exception_in_a_delay_slot :
    answers (one ({ pair 0x7FFFFFFF 1 with sr := 0x00400005, branchTaken := true, pc := 0xBFC00104, nextPc := 0xBFC00114 }) 0x00221820) (fun t => decide (t.sr = 0x00400014) && decide (t.cause = 0x80000030) && decide (t.epc = 0xBFC00100) && decide (t.pc = 0xBFC00180)) = true := by decide

/-- V-EXC-5, the aborted step: nothing is fetched and the flags are kept. -/
theorem test_misaligned_fetch :
    answers (step { State.reset with pc := 0xBFC00102, nextPc := 0xBFC00106, inDelaySlot := true, pending := ⟨2, 7⟩ })
      (fun t => decide (t.cause = 0x80000010 ∧ t.epc = 0xBFC000FE ∧ t.pc = 0x80000080 ∧ t.inDelaySlot = true ∧
        t.pending = ⟨2, 7⟩)) = true := by decide

/-- V-EXC-4, the second step: the pending load lands although the instruction traps. -/
theorem test_pending_load_lands_in_a_trap :
    answers (one { State.reset with pending := ⟨2, 0xABCD1234⟩ } 0x0000000C)
      (fun t => decide (t.x 2 = 0xABCD1234 ∧ t.pending = ⟨0, 0⟩)) = true := by decide

/-- V-MEM-10 -/
theorem test_halt_out_of_range : stops (one (pair 0x00200000 0) 0x8C220000) (.outOfRange []) = true := by decide

/-- V-MEM-11 -/
theorem test_halt_bad_width : stops (one (pair 0x1F800000 0) 0x80221814) (.badWidth []) = true := by decide

/-- V-MEM-13 -/
theorem test_store_to_bios_halts : stops (one (pair 0xBFC00000 0) 0xAC220000) (.outOfRange []) = true := by decide

/-- V-MEM-1 -/
theorem test_gpu_status :
    answers (one (pair 0x1F800000 0) 0x8C221814) (fun t => decide (t.pending = ⟨2, 0x14802000⟩)) = true := by decide

/-- V-MEM-3 -/
theorem test_exp1_reads_ff :
    answers (one (pair 0x1F000000 0) 0x94220000) (fun t => decide (t.pending = ⟨2, 0xFF⟩)) = true := by decide

/-! ## DMA and GPU, one operation each -/

/-- V-DMA-1 and V-DMA-3. -/
theorem test_dma_registers :
    answers (dmaWrite 0x08 0xEEFFF9FF State.reset) (fun t => gives (dmaRead 0x08 t) 0x60770103) = true ∧
    answers (dmaWrite 0x74 0xFFFFFFFF State.reset) (fun t => gives (dmaRead 0x74 t) 0x80FF803F) = true ∧
    stops (dmaWrite 0x08 0x00000600 State.reset) (.unimplemented []) = true := by decide

/-- V-SRC-3 as corrected. -/
theorem test_otc_transfer :
    answers (dmaWrite 0x68 0x11000002 (State.reset.setChannel 6 ⟨0x1000, 4, 0⟩))
      (fun t => decide (t.mem.load 0x1000 .word = 0xFFC ∧ t.mem.load 0xFF4 .word = 0x00FFFFFF ∧
        (t.channel 6).control = 2)) = true := by decide

/-- V-DMA-8, the last word of the block and the channel at its end. -/
theorem test_gpu_block_transfer :
    answers (dmaWrite 0x28 0x01000201 (word 0x3000 0xE4032064 (State.reset.setChannel 2 ⟨0x3000, 0x00010001, 0⟩)))
      (fun t => decide (t.gpu.areaRight = 100 ∧ t.gpu.areaBottom = 200 ∧ (t.channel 2).control = 0x201)) = true := by
  decide

/-- A list of two nodes, V-SRC-2 as corrected. -/
def listState : State :=
  word 0x100 0x01000108 (word 0x104 0xE1000000 (word 0x108 0x00FFFFFF
    (State.reset.setChannel 2 ⟨0x100, 0, 0⟩)))

theorem test_linked_list_transfer :
    answers (dmaWrite 0x28 0x11000401 listState)
      (fun t => decide ((t.channel 2).control = 0x401 ∧ t.gpu.status = 0x14802000 ∧ t.gpu.argRemaining = 0)) = true := by
  decide

/-- V-SRC-4 as corrected. -/
theorem test_mono_quad :
    answers (gp0All [0x28800000, 0, 0xFF, 0x00FF0000, 0x00FF00FF] State.reset) (fun t =>
      decide (t.messages = [.quad ⟨0, 0, 0, 0, 0x80⟩ ⟨255, 0, 0, 0, 0x80⟩ ⟨0, 255, 0, 0, 0x80⟩ ⟨255, 255, 0, 0, 0x80⟩])) =
      true := by decide

/-- V-GPU-1. -/
theorem test_shaded_triangle :
    answers (gp0All [0x300000FF, 0, 0x0000FF00, 0x00000064, 0x00FF0000, 0x00640000] State.reset) (fun t =>
      decide (t.messages = [.triangle ⟨0, 0, 255, 0, 0⟩ ⟨100, 0, 0, 255, 0⟩ ⟨0, 100, 0, 0, 255⟩])) = true := by decide

/-- V-GPU-2. -/
theorem test_textured_quad :
    answers (gp0All [0x2C000000, 0x00100020, 0x11111111, 0xFFFF07FF, 0x22222222, 0x04000400, 0x33333333, 0x03FF03FF,
        0x44444444] State.reset) (fun t =>
      decide (t.messages = [.quad ⟨32, 16, 0x80, 0, 0⟩ ⟨0xFFFFFFFF, 0xFFFFFFFF, 0x80, 0, 0⟩
        ⟨0xFFFFFC00, 0xFFFFFC00, 0x80, 0, 0⟩ ⟨1023, 1023, 0x80, 0, 0⟩])) = true := by decide

/-- V-GPU-4, V-GPU-5 and V-GPU-6. -/
theorem test_draw_state :
    answers (gp0Exec 0xE1003FFF State.reset) (fun t => decide (t.gpu.status = 0x1480A7FF)) = true ∧
    answers (gp0Exec 0xE50087F0 State.reset) (fun t => decide (t.messages = [.offset 0xFFFFFFF0 16, .draw])) = true ∧
    answers (gp0Exec 0xE2008C41 State.reset)
      (fun t => decide (t.gpu.twMaskX = 1 ∧ t.gpu.twMaskY = 2 ∧ t.gpu.twOffsetX = 3 ∧ t.gpu.twOffsetY = 1)) = true ∧
    answers (gp0Exec 0xE6000003 State.reset) (fun t => decide (t.gpu.status = 0x14803800)) = true := by decide

/-- V-GPU-7 to V-GPU-9. -/
theorem test_image_load :
    answers (gp0All [0xA0000000, 0, 0x00010001, 0xFF000000] State.reset) (fun t => decide (t.gpu.mode = .command)) = true ∧
    answers (gp0All [0xA0000000, 0, 0xFFFFFFFF] State.reset) (fun t => decide (t.gpu.argRemaining = 0x7FFF0001)) = true ∧
    stops (gp0All [0xA0000000, 0, 0x00050000] State.reset) (.unimplemented []) = true := by decide

/-- V-GPU-10 to V-GPU-12, V-GPU-14. -/
theorem test_gp1 :
    answers (gp1Exec 0x04000002 State.reset) (fun t => decide (t.gpu.status = 0x56802000)) = true ∧
    answers (gp1Exec 0x05FFFFFF State.reset) (fun t => decide (t.gpu.vramX = 0x3FE ∧ t.gpu.vramY = 0x1FF)) = true ∧
    answers (gp1Exec 0x080000FF State.reset) (fun t => decide (t.gpu.status = 0x14F76000)) = true ∧
    stops (gp1Exec 0x10000007 State.reset) (.unknownGpuOpcode []) = true := by decide

/-! ## Witnesses: for every obligation with hypotheses, data that meet them

A statement whose clauses have hypotheses of their own has a witness for each clause, at a boundary of its range. -/

/-- The reset state about to run `w`. -/
def boot (w : Nat) : State := State.reset.withFetchWord 32 w

/-- A state with `sr = v`. -/
def withSr (v : Word) (s : State) : State := { s with sr := v }

/-- A state about to fetch from RAM address 0. -/
def atZero (s : State) : State := { s with pc := 0, nextPc := 4 }



theorem test_witness_DecodeEncodeRoundTrip :
    (Instr.bltz 31 0b1111 0xFFFF).WellFormed ∧ (Instr.sw 31 0 0x8000).WellFormed := by decide

theorem test_witness_DecodedInstructionKeepsTheWordsBits : decode 0x043E0004#32 = .ok (.bltz 1 0b1111 4) := by decide

theorem test_witness_DecodeIsTheFirstMatchingTableRow :
    decode 0x04300004#32 = .ok (.bltzal 1 4) ∧ decode 0x0000003F#32 = .error (.unassignedFunct 0x3F) := by decide

theorem test_witness_StepRunsTheDecodedInstruction :
    (boot 0x3C080013).shutdown = false ∧ (boot 0x3C080013).pc &&& 3#32 = 0 ∧
      memRead (boot 0x3C080013).pc .word (boot 0x3C080013) = .next 0x3C080013 ∧ decode 0x3C080013#32 = .ok (.lui 8 0x13) :=
  ⟨by decide, by decide, next_of_gives (by decide), by decide⟩

theorem test_witness_UndecodableWordTakesIllegalInstruction :
    (boot 0xFFFFFFFF).shutdown = false ∧ (boot 0xFFFFFFFF).pc &&& 3#32 = 0 ∧
      memRead (boot 0xFFFFFFFF).pc .word (boot 0xFFFFFFFF) = .next 0xFFFFFFFF ∧
      decode 0xFFFFFFFF#32 = .error (.unassignedOpcode 0x3F) :=
  ⟨by decide, by decide, next_of_gives (by decide), by decide⟩

theorem test_witness_MisalignedOrRefusedFetch :
    ({ State.reset with pc := 0xBFC00001 }.shutdown = false ∧ (0xBFC00001#32 : Word) &&& 3#32 ≠ 0 ∧
      (0xBFC00003#32 : Word) &&& 3#32 ≠ 0) ∧
    ((0x00200000#32 : Word) &&& 3#32 = 0 ∧
      memRead 0x00200000 .word { State.reset with pc := 0x00200000 } = .fault (.outOfRange [])) :=
  ⟨by decide, by decide, rfl⟩

/-- A step that answers, of a running machine. -/
theorem test_witness_ShutdownStopsTheMachine : ∃ t, step (boot 0x3C080013) = .next t := ⟨_, next_out (by decide)⟩

/-- `lw r2, 0x100(r0)` then `addu r3, r2, r0` (V-HAZ-1). -/
def loadThenAdd : State :=
  atZero (word 0 0x8C020100 (word 4 0x00401821 (word 0x100 0xABCD1234 (regs [(2, 0x22222222)] State.reset))))

theorem test_witness_LoadIsNotVisibleToTheNextInstruction :
    ∃ t u, RegsInv loadThenAdd ∧ Runs loadThenAdd (.lw 2 0 0x100) ∧ isolated loadThenAdd = false ∧
      aligned (effAddr loadThenAdd 0 0x100) .word = true ∧
      memRead (effAddr loadThenAdd 0 0x100) .word loadThenAdd = .next 0xABCD1234 ∧
      step loadThenAdd = .next t ∧ Runs t (.addu 3 2 0) ∧ step t = .next u :=
  ⟨out (step loadThenAdd), out (step (out (step loadThenAdd))), ⟨by decide, by decide⟩,
    runs_of_fetches (w := 0x8C020100) (by decide), by decide, by decide, next_of_gives (by decide),
    next_out (by decide), runs_of_fetches (w := 0x00401821) (by decide), next_out (by decide)⟩

/-- A branch (taken: `beq r0, r0`; not taken: `bne r0, r0`) then `syscall` (V-EXC-2). -/
def branchThenTrap (branch : Word) : State := atZero (word 0 branch (word 4 0x0000000C State.reset))

theorem test_witness_ExceptionInADelaySlotRestartsAtTheBranch :
    (∃ t u, Runs (branchThenTrap 0x10000004) (.beq 0 0 4) ∧
      (branchThenTrap 0x10000004).nextPc = (branchThenTrap 0x10000004).pc + 4 ∧
      step (branchThenTrap 0x10000004) = .next t ∧ Runs t (.syscall 0) ∧ step t = .next u ∧ t.branchTaken = true) ∧
    (∃ t u, Runs (branchThenTrap 0x14000004) (.bne 0 0 4) ∧
      (branchThenTrap 0x14000004).nextPc = (branchThenTrap 0x14000004).pc + 4 ∧
      step (branchThenTrap 0x14000004) = .next t ∧ Runs t (.syscall 0) ∧ step t = .next u ∧ t.branchTaken = false) :=
  ⟨⟨out (step (branchThenTrap 0x10000004)), out (step (out (step (branchThenTrap 0x10000004)))),
    runs_of_fetches (w := 0x10000004) (by decide), by decide, next_out (by decide),
    runs_of_fetches (w := 0x0000000C) (by decide), next_out (by decide), by decide⟩,
   ⟨out (step (branchThenTrap 0x14000004)), out (step (out (step (branchThenTrap 0x14000004)))),
    runs_of_fetches (w := 0x14000004) (by decide), by decide, next_out (by decide),
    runs_of_fetches (w := 0x0000000C) (by decide), next_out (by decide), by decide⟩⟩

theorem test_witness_StepKeepsRegistersCommitted :
    RegsInv (boot 0x24020007) ∧ ∃ t, step (boot 0x24020007) = .next t :=
  ⟨⟨by decide, by decide⟩, _, next_out (by decide)⟩

/-- `sw r1, 0(r1)` with `r1 = 0x100`. -/
def storing : State := (pair 0x100 0).withFetchWord 32 0xAC210000

theorem storing_mem : MemInv storing := by
  refine ⟨by decide, ?_⟩
  have h : ∀ c ∈ storing.mem, Config.biosStart ≤ c.1 ∧ c.1 < Config.biosStart + Config.biosSize := by decide
  exact fun c hc => .inr (.inr (h c hc))

theorem test_witness_StepKeepsMemoryCanonical : MemInv storing ∧ ∃ t, step storing = .next t :=
  ⟨storing_mem, _, next_out (by decide)⟩

theorem test_witness_BiosNeverChanges :
    (MemInv storing ∧ ∃ t, step storing = .next t) ∧
      (Config.biosStart ≤ 0x1FC00000 ∧ 0x1FC00000 < Config.biosStart + Config.biosSize) ∧
      (Config.biosStart ≤ 0x1FC7FFFF ∧ 0x1FC7FFFF < Config.biosStart + Config.biosSize) :=
  ⟨⟨storing_mem, _, next_out (by decide)⟩, by decide, by decide⟩

/-- `sw r2, 0(r1)` with `r1` the GPU channel's control register and `r2` a one-word block transfer. -/
def dmaStart : State :=
  ((pair 0x1F8010A8 0x01000201).setChannel 2 ⟨0x3000, 0x00010001, 0⟩).withFetchWord 32 0xAC220000

theorem test_witness_StepKeepsDmaControllerLegal : DmaInv dmaStart.dma ∧ ∃ t, step dmaStart = .next t :=
  ⟨⟨by decide, by decide, by decide, by decide, by decide, by decide⟩, _, next_out (by decide)⟩

theorem reset_gpu : GpuInv Gpu.reset :=
  ⟨by decide, by decide, by decide, by decide, by decide, by decide, by decide, by decide, by decide, by decide, .inl rfl⟩

theorem test_witness_StepKeepsGpuLegal : GpuInv dmaStart.gpu ∧ ∃ t, step dmaStart = .next t :=
  ⟨reset_gpu, _, next_out (by decide)⟩

theorem test_witness_StepKeepsCauseLegal :
    (boot 0x0000000C).cause ∈ legalCauses ∧ ∃ t, step (boot 0x0000000C) = .next t :=
  ⟨by decide, _, next_out (by decide)⟩

/-- `sw r2, 0(r1)` of a drawing-offset word to GP0. -/
def emitting : State := (pair 0x1F801810 0xE5000810).withFetchWord 32 0xAC220000

theorem test_witness_MessagesOnlyGrow : ∃ t, step emitting = .next t := ⟨_, next_out (by decide)⟩

/-- Reset parameters with an image of `n` bytes. -/
def params (n : Nat) : ResetParams :=
  ⟨Vector.replicate 32 7, 1, 2, [(0, 5)], [(0x1F8003FF, 3)], List.replicate n 0x5A⟩

theorem test_witness_PowerOnNeedsAFullBiosImage :
    (params 0x7FFFF).bios.length ≠ 0x80000 ∧ (params 0x80000).bios.length = 0x80000 ∧ (params 0x80000).ram.wf ∧
      (params 0x80000).scratch.wf := by
  have h : ∀ n, (params n).bios.length = n := fun n => List.length_replicate
  exact ⟨by rw [h]; decide, h _, show Memory.wf [(0, 5)] by decide, show Memory.wf [(0x1F8003FF, 3)] by decide⟩

theorem test_witness_RfeUndoesExceptionEntry :
    EntersException 0x00000020 0x80000020 (withSr 0x00400005 State.reset) (raise .sysCall (withSr 0x00400005 State.reset)) :=
  ⟨rfl, by decide, by decide, by decide, by decide, by decide, by decide, by decide, by decide⟩

theorem test_witness_Mfc0ReadsThroughThePendingSlot :
    ((11 : RegIdx) ≠ 12 ∧ (11 : RegIdx) ≠ 13 ∧ (11 : RegIdx) ≠ 14) ∧
      ((15 : RegIdx) ≠ 12 ∧ (15 : RegIdx) ≠ 13 ∧ (15 : RegIdx) ≠ 14) := by decide

theorem test_witness_Mtc0WritesOnlyTheStatusRegister :
    (3 : RegIdx) ∈ ([3, 5, 6, 7, 9, 11, 13] : List RegIdx) ∧ (13 : RegIdx) ∈ ([3, 5, 6, 7, 9, 11, 13] : List RegIdx) ∧
      (14 : RegIdx) ∉ ([3, 5, 6, 7, 9, 11, 12, 13] : List RegIdx) ∧
      (4 : RegIdx) ∉ ([3, 5, 6, 7, 9, 11, 12, 13] : List RegIdx) := by decide

theorem test_witness_WhoWritesTheSpecialRegisters :
    ∃ t, exec (.addu 3 1 2) (pair 1 2) = .next t ∧ (∀ rt n, Instr.addu 3 1 2 ≠ .mtc0 rt n) ∧
      (∀ rs rt, Instr.addu 3 1 2 ≠ .mult rs rt ∧ Instr.addu 3 1 2 ≠ .multu rs rt ∧ Instr.addu 3 1 2 ≠ .div rs rt ∧
        Instr.addu 3 1 2 ≠ .divu rs rt) ∧ ∀ rs, Instr.addu 3 1 2 ≠ .mthi rs ∧ Instr.addu 3 1 2 ≠ .mtlo rs :=
  ⟨_, rfl, nofun, fun _ _ => ⟨nofun, nofun, nofun, nofun⟩, fun _ => ⟨nofun, nofun⟩⟩

/-- The exact sum of `r1` and `r2`, their difference, and the sum of `r1` and an immediate. -/
def sumOf (s : State) : Int := (s.x 1).toInt + (s.x 2).toInt
def diffOf (s : State) : Int := (s.x 1).toInt - (s.x 2).toInt
def sumImmOf (s : State) (imm : BitVec 16) : Int := (s.x 1).toInt + imm.toInt

theorem test_witness_SignedArithmeticTrapsOnOverflow :
    sumOf (pair 0x7FFFFFFE 1) = 2 ^ 31 - 1 ∧ sumOf (pair 0x80000001 0xFFFFFFFF) = -2 ^ 31 ∧
    sumOf (pair 0x7FFFFFFF 1) = 2 ^ 31 ∧ sumOf (pair 0x80000000 0xFFFFFFFF) = -2 ^ 31 - 1 ∧
    diffOf (pair 0x7FFFFFFE 0xFFFFFFFF) = 2 ^ 31 - 1 ∧ diffOf (pair 0x80000001 1) = -2 ^ 31 ∧
    diffOf (pair 0 0x80000000) = 2 ^ 31 ∧ diffOf (pair 0x80000000 1) = -2 ^ 31 - 1 ∧
    sumImmOf (pair 0x7FFF8000 0) 0x7FFF = 2 ^ 31 - 1 ∧ sumImmOf (pair 0x80008000 0) 0x8000 = -2 ^ 31 ∧
    sumImmOf (pair 0x7FFF8001 0) 0x7FFF = 2 ^ 31 ∧ sumImmOf (pair 0x80000000 0) 0xFFFF = -2 ^ 31 - 1 := by decide

/-- Each clause of the division statement: a zero divisor, the overflowing pair, and two pairs of the last clause. -/
theorem test_witness_DivisionGivesQuotientAndRemainder :
    (pair 5 0).x 2 = 0 ∧ ((pair 0x80000000 0xFFFFFFFF).x 1 = 0x80000000#32 ∧ (pair 0x80000000 0xFFFFFFFF).x 2 = 0xFFFFFFFF#32) ∧
    ((pair 0x80000000 1).x 2 ≠ 0 ∧ ¬((pair 0x80000000 1).x 1 = 0x80000000#32 ∧ (pair 0x80000000 1).x 2 = 0xFFFFFFFF#32)) ∧
    ((pair 0x80000001 0xFFFFFFFF).x 2 ≠ 0 ∧
      ¬((pair 0x80000001 0xFFFFFFFF).x 1 = 0x80000000#32 ∧ (pair 0x80000001 0xFFFFFFFF).x 2 = 0xFFFFFFFF#32)) := by
  decide

theorem test_witness_ConditionalBranches :
    (pair 5 5).x 1 = (pair 5 5).x 2 ∧ (pair 5 6).x 1 ≠ (pair 5 6).x 2 ∧ ((pair 0 0).x 1).toInt ≤ 0 ∧
      0 < ((pair 1 0).x 1).toInt ∧ 0 ≤ ((pair 0 0).x 1).toInt ∧ ((pair 0xFFFFFFFF 0).x 1).toInt < 0 := by decide

theorem test_witness_LinkingBranches :
    0 ≤ ((pair 0 0).x 1).toInt ∧ ((pair 0xFFFFFFFF 0).x 1).toInt < 0 := by decide

theorem test_witness_IsolatedCacheDropsEveryAccess : (withSr 0x00010000 State.reset).sr.getLsbD 16 = true := by decide

/-- Odd addresses and the three misaligned word addresses. -/
theorem test_witness_MisalignedAccessRaises :
    (pair 0x101 0).sr.getLsbD 16 = false ∧ ((pair 0x101 0).x 1 + (0#16).signExtend 32).toNat % 2 ≠ 0 ∧
      ((pair 0x101 0).x 1 + (0#16).signExtend 32).toNat % 4 ≠ 0 ∧
      ((pair 0x102 0).x 1 + (0#16).signExtend 32).toNat % 4 ≠ 0 ∧
      ((pair 0x104 0).x 1 + (0xFFFF#16).signExtend 32).toNat % 4 ≠ 0 := by decide

/-- A byte, a halfword and a word of RAM; the last word of RAM. -/
theorem test_witness_LoadsFillThePendingSlot :
    (pair 0x103 0).sr.getLsbD 16 = false ∧
      memRead (effAddr (word 0x100 0x80FF7F01 (pair 0x103 0)) 1 0) .byte (word 0x100 0x80FF7F01 (pair 0x103 0)) = .next 0x80 ∧
      memRead (effAddr (word 0x100 0x80FF7F01 (pair 0x102 0)) 1 0) .half (word 0x100 0x80FF7F01 (pair 0x102 0)) = .next 0x80FF ∧
      memRead (effAddr (pair 0x1FFFFC 0) 1 0) .word (pair 0x1FFFFC 0) = .next 0 ∧
      (effAddr (pair 0x102 0) 1 0).toNat % 2 = 0 ∧ (effAddr (pair 0x1FFFFC 0) 1 0).toNat % 4 = 0 :=
  ⟨by decide, next_of_gives (by decide), next_of_gives (by decide), next_of_gives (by decide), by decide, by decide⟩

theorem test_witness_UnalignedLoadsMergeBytes :
    (pair 0x1FFFFF 0).sr.getLsbD 16 = false ∧
      memRead (alignWord (effAddr (pair 0x1FFFFF 0) 1 0)) .word (pair 0x1FFFFF 0) = .next 0 ∧
      (effAddr (pair 0x1FFFFF 0) 1 0).toNat % 4 = 3 :=
  ⟨by decide, next_of_gives (by decide), by decide⟩

theorem inRam (va : Word) (h : decide ((physical va).toNat < 0x200000) = true) : InRam va :=
  show (physical va).toNat < 0x200000 from of_decide_eq_true h

/-- The first and the last bytes of RAM, through two segments. -/
theorem test_witness_StoresWriteRam :
    (pair 0 0).sr.getLsbD 16 = false ∧ (pair 0 0).mem.wf ∧ InRam (effAddr (pair 0 0) 1 0) ∧
      InRam (effAddr (pair 0x801FFFFC 0) 1 3) ∧ (effAddr (pair 0x801FFFFC 0) 1 2).toNat % 2 = 0 ∧
      (effAddr (pair 0x801FFFFC 0) 1 0).toNat % 4 = 0 :=
  ⟨by decide, by decide, inRam _ (by decide), inRam _ (by decide), by decide, by decide⟩

theorem test_witness_UnalignedStoresWriteRam :
    (pair 0 0).sr.getLsbD 16 = false ∧ (pair 0 0).mem.wf ∧ InRam (effAddr (pair 0 0) 1 0) ∧
      InRam (effAddr (pair 0xA01FFFFF 0) 1 0) :=
  ⟨by decide, by decide, inRam _ (by decide), inRam _ (by decide)⟩

theorem test_witness_StoresKeepTheCpu :
    (pair 0x102 0).sr.getLsbD 16 = false ∧ (effAddr (pair 0x102 0) 1 0).toNat % 2 = 0 ∧
      (effAddr (pair 0x104 0) 1 0).toNat % 4 = 0 ∧ (∃ t, memWrite 0x104 .word 7 (pair 0x104 0) = .next t) ∧
      (∃ t, exec (.swl 2 1 0) (pair 0x105 7) = .next t) ∧ ∃ t, exec (.swr 2 1 0) (pair 0x105 7) = .next t :=
  ⟨by decide, by decide, by decide, ⟨_, next_out (by decide)⟩, ⟨_, next_out (by decide)⟩, ⟨_, next_out (by decide)⟩⟩

/-- `lwr r2, 1(r1)` then `lwl r2, 4(r1)` with `r1 = 0x100` (V-HAZ-4). -/
def loadPair : State :=
  atZero (word 0 0x98220001 (word 4 0x88220004 (word 0x100 0x11223344 (word 0x104 0x55667788 (pair 0x100 0)))))

theorem test_witness_UnalignedPairLoadsTheWord :
    ∃ t, Runs loadPair (.lwr 2 1 1) ∧ loadPair.sr.getLsbD 16 = false ∧ step loadPair = .next t ∧ Runs t (.lwl 2 1 4) ∧
      effAddr t 1 4 = effAddr loadPair 1 1 + 3 ∧ InRam (effAddr loadPair 1 1) ∧ InRam (effAddr loadPair 1 1 + 3) :=
  ⟨out (step loadPair), runs_of_fetches (w := 0x98220001) (by decide), by decide, next_out (by decide),
    runs_of_fetches (w := 0x88220004) (by decide), by decide, inRam _ (by decide), inRam _ (by decide)⟩

/-- V-HAZ-4: the value the pair loads. -/
theorem test_unaligned_pair_loads :
    answers (andThen (step loadPair) step) (fun t => decide (t.pending = ⟨2, 0x88112233⟩)) = true := by decide

/-- V-LAW-2, the storing half: the word written at each of the four offsets. -/
theorem test_unaligned_pair_stores :
    ∀ k ∈ [0x100, 0x101, 0x102, 0x103],
      answers (andThen (exec (.swr 2 1 0) (pair (BitVec.ofNat 32 k) 0xAABBCCDD)) (exec (.swl 2 1 3)))
        (fun t => decide (t.mem.load k .word = 0xAABBCCDD)) = true := by decide

theorem test_witness_UnalignedPairStoresTheWord :
    (pair 0x1FFFFC 0).sr.getLsbD 16 = false ∧ (pair 0x1FFFFC 0).mem.wf ∧
      effAddr (pair 0x1FFFFC 0) 1 3 = effAddr (pair 0x1FFFFC 0) 1 0 + 3 ∧ InRam (effAddr (pair 0x1FFFFC 0) 1 0) ∧
      InRam (effAddr (pair 0x1FFFFC 0) 1 0 + 3) ∧
      effAddr (pair 0x101 0) 1 3 = effAddr (pair 0x101 0) 1 0 + 3 ∧ InRam (effAddr (pair 0x101 0) 1 0) ∧
      InRam (effAddr (pair 0x101 0) 1 0 + 3) :=
  ⟨by decide, by decide, by decide, inRam _ (by decide), inRam _ (by decide), by decide, inRam _ (by decide),
    inRam _ (by decide)⟩

/-- Both ends of each segment group. -/
theorem test_witness_SegmentsTranslateByMask :
    (0x7FFFFFFF#32).toNat < 0x80000000 ∧
      (0x80000000 ≤ (0x80000000#32).toNat ∧ (0x9FFFFFFF#32).toNat < 0xA0000000) ∧
      (0xA0000000 ≤ (0xA0000000#32).toNat ∧ (0xBFFFFFFF#32).toNat < 0xC0000000) ∧
      0xC0000000 ≤ (0xC0000000#32).toNat := by decide

/-- The physical address of a virtual one, for the region clauses. -/
def at' (va : Word) : Nat := (physical va).toNat

/-- A first and a last address of the ranges of each clause, in the order of the statement. -/
theorem test_witness_BusLoadsByRegion :
    (at' 0x80000000 = 0 ∧ at' 0xA01FFFFF = 0x1FFFFF ∧ at' 0xBFC00000 = 0x1FC00000 ∧ at' 0x9FC7FFFF = 0x1FC7FFFF) ∧
    (at' 0x1F000000 = 0x1F000000 ∧ at' 0xBF7FFFFF = 0x1F7FFFFF) ∧
    (at' 0x1F801070 = 0x1F801070 ∧ at' 0x1F80112F = 0x1F80112F ∧ at' 0x1F801E7F = 0x1F801E7F) ∧
    (at' 0xBF801810 = 0x1F801810) ∧ (at' 0xBF801814 = 0x1F801814) ∧
    (at' 0x1F801080 = 0x1F801080 ∧ at' 0x1F8010FF = 0x1F8010FF) ∧
    (at' 0x1F801080 = 0x1F801080 ∧ at' 0x1F801817 = 0x1F801817 ∧ Width.half ≠ .word) ∧
    (at' 0x00200000 = 0x200000 ∧ at' 0x1F80106F = 0x1F80106F ∧ at' 0x1F80107F = 0x1F80107F ∧
      at' 0x1F801130 = 0x1F801130 ∧ at' 0x1F801BFF = 0x1F801BFF ∧ at' 0x1F802041 = 0x1F802041 ∧
      at' 0xFFFFFFFF = 0xFFFFFFFF) := by decide

theorem test_witness_BusStoresByRegion :
    (at' 0x801FFFFC = 0x1FFFFC ∧ State.reset.mem.wf) ∧
    (at' 0x1F801023 = 0x1F801023 ∧ at' 0x1F801063 = 0x1F801063 ∧ at' 0x1F801077 = 0x1F801077 ∧
      at' 0x1F801100 = 0x1F801100 ∧ at' 0x1F801C00 = 0x1F801C00 ∧ at' 0x1F802041 = 0x1F802041 ∧
      at' 0xFFFE0133 = 0xFFFE0133) ∧
    (at' 0xBF801810 = 0x1F801810) ∧ (at' 0xBF801814 = 0x1F801814) ∧
    (at' 0x1F801080 = 0x1F801080 ∧ at' 0x1F8010FF = 0x1F8010FF) ∧
    (at' 0x1F801817 = 0x1F801817 ∧ Width.byte ≠ .word) ∧
    (at' 0x1F000000 = 0x1F000000 ∧ at' 0x1F801024 = 0x1F801024 ∧ at' 0x1F80106F = 0x1F80106F ∧
      at' 0x1F801078 = 0x1F801078 ∧ at' 0x1F801130 = 0x1F801130 ∧ at' 0x1F801818 = 0x1F801818 ∧
      at' 0x1F801FFF = 0x1F801FFF ∧ at' 0xBFC00000 = 0x1FC00000 ∧ at' 0xFFFE0134 = 0xFFFE0134) := by decide

theorem test_witness_RamStoreThenLoad : State.reset.mem.wf ∧ InRam 0 ∧ InRam 0xA01FFFFF :=
  ⟨by decide, inRam _ (by decide), inRam _ (by decide)⟩

/-- An inactive control word of each legal `sync`, and the `sync` without meaning. -/
theorem test_witness_DmaRegistersReadBack :
    (field 0x01000000#32 9 2 ≠ 3 ∧ ¬((0x01000000#32).getLsbD 24 = true ∧
      (field 0x01000000#32 9 2 ≠ 0 ∨ (0x01000000#32).getLsbD 28 = true))) ∧
    (field 0xEEFFF5FF#32 9 2 ≠ 3 ∧ ¬((0xEEFFF5FF#32).getLsbD 24 = true ∧
      (field 0xEEFFF5FF#32 9 2 ≠ 0 ∨ (0xEEFFF5FF#32).getLsbD 28 = true))) ∧
    field 0x00000600#32 9 2 = 3 := by decide

/-- No word; one word of each port, by either `sync`; a channel without a port; the largest Manual size. -/
theorem test_witness_BlockTransfersByPort :
    State.reset.mem.wf ∧
      ((0x11000002#32).getLsbD 24 = true ∧ field 0x11000002#32 9 2 = 0 ∧ (0x11000002#32).getLsbD 28 = true ∧
        (0x11000002#32).getLsbD 0 = false) ∧
      ((0x01000201#32).getLsbD 24 = true ∧ field 0x01000201#32 9 2 = 1 ∧ (0x01000201#32).getLsbD 0 = true) ∧
      (State.reset.channel 6).blockControl.toNat % 0x10000 = 0 ∧
      ((State.reset.setChannel 6 ⟨0x1000, 1, 0⟩).channel 6).blockControl.toNat % 0x10000 = 1 ∧
      ((State.reset.setChannel 2 ⟨0x3000, 0x00020002, 0⟩).channel 2).blockControl.toNat % 0x10000 *
        (((State.reset.setChannel 2 ⟨0x3000, 0x00020002, 0⟩).channel 2).blockControl.toNat / 0x10000) = 4 ∧
      ((State.reset.setChannel 6 ⟨0, 0xFFFF, 0⟩).channel 6).blockControl.toNat % 0x10000 ≤ 0x80000 ∧
      (4 : Fin 7) ≠ (if (0x01000201#32).getLsbD 0 then 2 else 6) := by decide

theorem test_witness_LinkedListTransferPushesThePayload :
    (0x11000401#32).getLsbD 24 = true ∧ field 0x11000401#32 9 2 = 2 ∧ (0x11000401#32).getLsbD 0 = true ∧
      (0x11000400#32).getLsbD 0 = false ∧ 2 ≤ listFuel ∧
      listPayload listState.mem 2 ((listState.channel 2).base.setWidth 32 &&& ramMask) = some [0xE1000000] := by
  decide

/-- A header of every drawing command, on a parser with no command in flight. -/
theorem test_witness_DrawingCommandsEmitTheirMessage :
    State.reset.gpu.mode = .command ∧ State.reset.gpu.argRemaining = 0 ∧ field 0x28800000#32 24 8 = 0x28 ∧
      field 0x2C000000#32 24 8 = 0x2C ∧ field 0x300000FF#32 24 8 = 0x30 ∧ field 0x38010203#32 24 8 = 0x38 ∧
      field 0xE53FFFFF#32 24 8 = 0xE5 := by decide

theorem test_witness_DrawStateCommandsWriteTheirFields :
    State.reset.gpu.mode = .command ∧ State.reset.gpu.argRemaining = 0 ∧ field 0xE1003FFF#32 24 8 = 0xE1 ∧
      field 0xE2008C41#32 24 8 = 0xE2 ∧ field 0xE30FFC01#32 24 8 = 0xE3 ∧ field 0xE40FFFFF#32 24 8 = 0xE4 ∧
      field 0xE6000003#32 24 8 = 0xE6 ∧ field 0x00FFFFFF#32 24 8 = 0x00 ∧ field 0x01000000#32 24 8 = 0x01 ∧
      field 0xC0FFFFFF#32 24 8 = 0xC0 := by decide

/-- The number of pixel words of a size word, as the statement computes it. -/
def pixelWords (size : Word) : Nat := ((size.toNat % 2 ^ 16) * (size.toNat / 2 ^ 16) + 1) / 2

theorem test_witness_ImageLoadSwallowsItsWords :
    State.reset.gpu.mode = .command ∧ State.reset.gpu.argRemaining = 0 ∧ field 0xA0000000#32 24 8 = 0xA0 ∧
      pixelWords 0x00050000 = 0 ∧ pixelWords 0x00010001 ≠ 0 ∧ [0xFF000000#32].length = pixelWords 0x00010001 ∧
      [1#32, 2, 3, 4, 5].length = pixelWords 0x00030003 := by decide

theorem test_witness_Gp1CommandsWriteTheirFields :
    field 0x00FFFFFF#32 24 8 = 0x00 ∧ field 0x01000000#32 24 8 = 0x01 ∧ field 0x02000000#32 24 8 = 0x02 ∧
      field 0x03000001#32 24 8 = 0x03 ∧ field 0x04000003#32 24 8 = 0x04 ∧ field 0x05FFFFFF#32 24 8 = 0x05 ∧
      field 0x06C60260#32 24 8 = 0x06 ∧ field 0x07040010#32 24 8 = 0x07 ∧ field 0x080000FF#32 24 8 = 0x08 ∧
      0x08 < (field 0x09000000#32 24 8).toNat ∧ 0x08 < (field 0xFF000000#32 24 8).toNat := by decide

/-- A header without a row and one with; a parser in each of the two states in which no word can be one. -/
theorem test_witness_UnknownGpuOpcodesHalt :
    State.reset.gpu.mode = .command ∧ State.reset.gpu.argRemaining = 0 ∧
      field 0x02000000#32 24 8 ∉
        ([0x00, 0x01, 0x28, 0x2C, 0x30, 0x38, 0xA0, 0xC0, 0xE1, 0xE2, 0xE3, 0xE4, 0xE5, 0xE6] : List (BitVec 8)) ∧
      field 0x2C000000#32 24 8 ∈
        ([0x00, 0x01, 0x28, 0x2C, 0x30, 0x38, 0xA0, 0xC0, 0xE1, 0xE2, 0xE3, 0xE4, 0xE5, 0xE6] : List (BitVec 8)) ∧
      { Gpu.reset with mode := .imageLoad, argRemaining := 1 }.mode = .imageLoad ∧
      { Gpu.reset with opcode := 0x28, argRemaining := 4 }.argRemaining ≠ 0 := by decide

/-- The host's two questions on one word, as it asks them. -/
theorem test_host_view :
    decodeTableWord 32 0x3C080013 = some (.lui 8 0x0013) ∧ decodeTableWord 32 0x0000003F = none ∧
      fetches (State.reset.withFetchWord 32 0x3C080013) 0x3C080013 (.lui 8 0x0013) = true := by decide


end Sys2Proof.Tests
end

/-!
PROOFS. Address translation by segment (spec/20_memory.md R71): the segment index is the address divided by 2^29, the
mask of a segment is all ones or the ones below a power of two, and masking with the latter is a remainder.
-/

namespace Sys2Proof.Machine

theorem toNat_segmentIndex (va : Word) : (field va 29 3).toNat = va.toNat / 2 ^ 29 := by
  have hlt := va.isLt
  simp only [field, BitVec.extractLsb'_toNat, Nat.shiftRight_eq_div_pow]
  omega

@[simp] theorem segMask_kseg0 : segMask 4#3 = 0x7FFFFFFF#32 := rfl

@[simp] theorem segMask_kseg1 : segMask 5#3 = 0x1FFFFFFF#32 := rfl

theorem segMask_other : ∀ i : BitVec 3, i ≠ 4#3 → i ≠ 5#3 → segMask i = BitVec.allOnes 32 := by decide

theorem physical_eq_self {va : Word} (h4 : va.toNat / 2 ^ 29 ≠ 4) (h5 : va.toNat / 2 ^ 29 ≠ 5) :
    physical va = va := by
  rw [← toNat_segmentIndex] at h4 h5
  rw [physical, segMask_other _ (fun h => h4 (congrArg BitVec.toNat h)) (fun h => h5 (congrArg BitVec.toNat h)),
    BitVec.and_allOnes]

theorem toNat_physical_kseg0 {va : Word} (h : va.toNat / 2 ^ 29 = 4) :
    (physical va).toNat = va.toNat % 2 ^ 31 := by
  have hseg : field va 29 3 = 4#3 := BitVec.eq_of_toNat_eq ((toNat_segmentIndex va).trans h)
  rw [physical, hseg, segMask_kseg0, BitVec.toNat_and]
  exact Nat.and_two_pow_sub_one_eq_mod va.toNat 31

theorem toNat_physical_kseg1 {va : Word} (h : va.toNat / 2 ^ 29 = 5) :
    (physical va).toNat = va.toNat % 2 ^ 29 := by
  have hseg : field va 29 3 = 5#3 := BitVec.eq_of_toNat_eq ((toNat_segmentIndex va).trans h)
  rw [physical, hseg, segMask_kseg1, BitVec.toNat_and]
  exact Nat.and_two_pow_sub_one_eq_mod va.toNat 29

/-- Settles O48: each address range fixes the segment index, and with it the mask. -/
theorem segmentsTranslateByMask : Obligations.SegmentsTranslateByMask := by
  intro va
  refine ⟨fun hhi => ?kuseg, fun hlo hhi => ?kseg0, fun hlo hhi => ?kseg1, fun hlo => ?kseg2⟩
  case kuseg => exact physical_eq_self (by omega) (by omega)
  case kseg0 =>
    rw [toNat_physical_kseg0 (by omega)]
    omega
  case kseg1 =>
    rw [toNat_physical_kseg1 (by omega)]
    omega
  case kseg2 => exact physical_eq_self (by omega) (by omega)

end Sys2Proof.Machine

/-!
PROOFS. Coprocessor 2 (spec/45_coprocessor.md R297, R301, R305): its three instructions halt before they read the state,
so the isolate bit cannot matter to them, and the halt keeps only the messages sent so far.
-/

namespace Sys2Proof.Machine

theorem haltUnimplemented_eq_fault {α : Type} (s : State) :
    (haltUnimplemented s : Res α) = .fault (.unimplemented s.messages) := rfl

theorem exec_cop2_eq_halt (cofun : BitVec 26) (s : State) : exec (.cop2 cofun) s = haltUnimplemented s := rfl

theorem exec_lwc2_eq_halt (rt rs : RegIdx) (imm : BitVec 16) (s : State) :
    exec (.lwc2 rt rs imm) s = haltUnimplemented s := rfl

theorem exec_swc2_eq_halt (rt rs : RegIdx) (imm : BitVec 16) (s : State) :
    exec (.swc2 rt rs imm) s = haltUnimplemented s := rfl

/-- Settles O25: each of the three is the Unimplemented halt, whose fault carries the messages of the state. -/
theorem coprocessor2Halts : Obligations.Coprocessor2Halts := by
  intro s
  refine ⟨fun cofun => ?cop2, fun rt rs imm => ?lwc2, fun rt rs imm => ?swc2⟩
  case cop2 => rw [exec_cop2_eq_halt, haltUnimplemented_eq_fault]
  case lwc2 => rw [exec_lwc2_eq_halt, haltUnimplemented_eq_fault]
  case swc2 => rw [exec_swc2_eq_halt, haltUnimplemented_eq_fault]

end Sys2Proof.Machine

/-!
PROOFS. Bit fields of words (spec/00_scope.md R7): a field, and the write of a field or a bit, one bit at a time.
-/

namespace Sys2Proof

@[simp] theorem getLsbD_field (w : Word) (lo len i : Nat) :
    (field w lo len).getLsbD i = (decide (i < len) && w.getLsbD (lo + i)) := by
  simp [field]

@[simp] theorem getElem_field (w : Word) (lo len i : Nat) (hi : i < len) : (field w lo len)[i] = w.getLsbD (lo + i) := by
  simp [field]

@[simp] theorem field_and (a b : Word) (lo len : Nat) : field (a &&& b) lo len = field a lo len &&& field b lo len := by
  apply BitVec.eq_of_getLsbD_eq
  intro i hi
  simp [hi]

/-- Two fields are equal exactly when their bits are. -/
theorem field_eq_iff {a b : Word} {lo lo' len : Nat} :
    field a lo len = field b lo' len ↔ ∀ i < len, a.getLsbD (lo + i) = b.getLsbD (lo' + i) := by
  constructor
  · intro h i hi
    simpa [hi] using congrArg (·.getLsbD i) h
  · intro h
    apply BitVec.eq_of_getLsbD_eq
    intro i hi
    simp [hi, h i hi]

/-- Two adjacent fields are one field. -/
theorem field_append (w : Word) {lo lo' len len' : Nat} (h : lo' = lo + len) :
    field w lo' len' ++ field w lo len = field w lo (len' + len) :=
  BitVec.extractLsb'_append_extractLsb'_eq_extractLsb' h

@[simp] theorem field_zero_32 (w : Word) : field w 0 32 = w := BitVec.extractLsb'_eq_self

theorem toNat_field (w : Word) (lo len : Nat) : (field w lo len).toNat = w.toNat / 2 ^ lo % 2 ^ len := by
  simp [field, Nat.shiftRight_eq_div_pow]

namespace Machine

theorem getLsbD_setField {len : Nat} (w : Word) (lo : Nat) (v : BitVec len) (i : Nat) :
    (setField w lo v).getLsbD i =
      if lo ≤ i ∧ i < lo + len then decide (i < 32) && v.getLsbD (i - lo) else w.getLsbD i := by
  unfold setField
  by_cases h32 : i < 32
  · by_cases hlo : lo ≤ i
    · by_cases hhi : i < lo + len
      · have h1 : i - lo < len := by omega
        have h3 : ¬ i < lo := by omega
        simp [h32, hlo, hhi, h1, h3]
      · have h2 : len ≤ i - lo := by omega
        simp [h32, hlo, hhi, BitVec.getLsbD_of_ge _ _ h2]
    · have h3 : i < lo := by omega
      simp [h32, hlo, h3]
  · have hw : w.getLsbD i = false := BitVec.getLsbD_of_ge _ _ (by omega)
    simp [h32, hw]

theorem getLsbD_setBit (w : Word) (k : Nat) (b : Bool) (i : Nat) :
    (setBit w k b).getLsbD i = if i = k then decide (i < 32) && b else w.getLsbD i := by
  rw [setBit, getLsbD_setField]
  by_cases h : i = k
  · subst h
    simp
  · rw [if_neg h, if_neg (by omega)]

end Machine

end Sys2Proof

/-!
PROOFS. The encoding (spec/30_encoding.md R131 to R139): a decoded instruction encodes back, a word that decodes keeps
the bits that are examined, and the opcode table by first match names what the decoder by fields finds.
-/

namespace Sys2Proof

@[simp] theorem decodeBcondz_bcondzWord (rs : RegIdx) (sel : BitVec 4) (sense : BitVec 1) (imm : BitVec 16) :
    decodeBcondz (bcondzWord rs sel sense imm) =
      if sel = 0b1000#4 then (if sense.getLsbD 0 then .bgezal rs imm else .bltzal rs imm)
      else if sense.getLsbD 0 then .bgez rs sel imm else .bltz rs sel imm := by
  simp only [decodeBcondz, bcondzWord_sel, bcondzWord_sense, rsField, immField, bcondzWord_rs, bcondzWord_imm, toFin_ofFin]

/-- Decoding undoes encoding: by format, the fields of the encoded word are the operands. -/
theorem decode_encode {i : Instr} (h : i.WellFormed) : decode (encode i) = .ok i := by
  cases i
  case sll | srl | sra | sllv | srlv | srav | jr | jalr | mfhi | mthi | mflo | mtlo | mult | multu | div | divu | add
      | addu | sub | subu | and | or | xor | nor | slt | sltu =>
    simp [encode, decode, decodeSpecial, opField, functField, rsField, rtField, rdField, shamtField]
  case syscall | brk => simp [encode, decode, decodeSpecial, opField, functField]
  case bltzal | bgezal => simp [encode, decode, opField]
  case bltz | bgez =>
    simp only [Instr.WellFormed, Instr.wellFormed, bne_iff_ne] at h
    simp [encode, decode, opField, h]
  case j | jal | cop1 | cop2 | cop3 => simp [encode, decode, opField, targetField]
  case mfc0 | mtc0 => simp [encode, decode, decodeCop0, opField, rtField, rdField]
  case rfe => rfl
  all_goals simp [encode, decode, opField, rsField, rtField, immField]

/-- Settles O1: field by field, in each format. -/
theorem decodeEncodeRoundTrip : Obligations.DecodeEncodeRoundTrip := fun _ h => decode_encode h

/-! ## Words by their fields -/

/-- The six fields of the R format hold every bit of a word. -/
theorem eq_of_fields {a b : Word} (op : field a 26 6 = field b 26 6) (rs : field a 21 5 = field b 21 5)
    (rt : field a 16 5 = field b 16 5) (rd : field a 11 5 = field b 11 5) (shamt : field a 6 5 = field b 6 5)
    (funct : field a 0 6 = field b 0 6) : a = b := by
  replace op := congrArg BitVec.toNat op
  replace rs := congrArg BitVec.toNat rs
  replace rt := congrArg BitVec.toNat rt
  replace rd := congrArg BitVec.toNat rd
  replace shamt := congrArg BitVec.toNat shamt
  replace funct := congrArg BitVec.toNat funct
  simp only [toNat_field] at op rs rt rd shamt funct
  have := a.isLt
  have := b.isLt
  exact BitVec.eq_of_toNat_eq (by omega)

/-- Words whose fields agree wherever the mask is not zero agree under the mask. -/
theorem and_eq_and_of_fields {a b m : Word} (op : field a 26 6 = field b 26 6 ∨ field m 26 6 = 0)
    (rs : field a 21 5 = field b 21 5 ∨ field m 21 5 = 0) (rt : field a 16 5 = field b 16 5 ∨ field m 16 5 = 0)
    (rd : field a 11 5 = field b 11 5 ∨ field m 11 5 = 0) (shamt : field a 6 5 = field b 6 5 ∨ field m 6 5 = 0)
    (funct : field a 0 6 = field b 0 6 ∨ field m 0 6 = 0) : a &&& m = b &&& m := by
  have key : ∀ {lo len : Nat}, field a lo len = field b lo len ∨ field m lo len = 0 →
      field (a &&& m) lo len = field (b &&& m) lo len := by
    rintro lo len (h | h) <;> simp [h]
  exact eq_of_fields (key op) (key rs) (key rt) (key rd) (key shamt) (key funct)

@[simp] theorem ofFin_rsField (w : Word) : BitVec.ofFin (w := 5) (rsField w) = field w 21 5 := rfl

@[simp] theorem ofFin_rtField (w : Word) : BitVec.ofFin (w := 5) (rtField w) = field w 16 5 := rfl

@[simp] theorem ofFin_rdField (w : Word) : BitVec.ofFin (w := 5) (rdField w) = field w 11 5 := rfl

/-- A word of the R format agrees with the one it is built from wherever the mask is not zero. -/
theorem rWord_and_eq {w m : Word} {op : BitVec 6} {rs rt rd : RegIdx} {shamt : BitVec 5} {funct : BitVec 6}
    (hop : opField w = op) (hrs : rs = rsField w ∨ field m 21 5 = 0) (hrt : rt = rtField w ∨ field m 16 5 = 0)
    (hrd : rd = rdField w ∨ field m 11 5 = 0) (hshamt : shamt = shamtField w ∨ field m 6 5 = 0)
    (hfunct : functField w = funct ∨ field m 0 6 = 0) :
    rWord op rs rt rd shamt funct &&& m = w &&& m := by
  refine and_eq_and_of_fields (.inl ?_) (hrs.imp_left ?_) (hrt.imp_left ?_) (hrd.imp_left ?_) (hshamt.imp_left ?_)
    (hfunct.imp_left ?_)
  · rw [rWord_op, ← hop, opField]
  · rintro rfl; simp
  · rintro rfl; simp
  · rintro rfl; simp
  · rintro rfl; simp [shamtField]
  · rintro rfl; simp [functField]

/-- A word of the I format agrees with the one it is built from wherever the mask is not zero. -/
theorem iWord_and_eq {w m : Word} {op : BitVec 6} {rs rt : RegIdx} (hop : opField w = op)
    (hrs : rs = rsField w ∨ field m 21 5 = 0) (hrt : rt = rtField w ∨ field m 16 5 = 0) :
    iWord op rs rt (immField w) &&& m = w &&& m := by
  have imm : ∀ lo len, lo + len ≤ 16 → field (iWord op rs rt (immField w)) lo len = field w lo len := fun lo len h =>
    field_eq_iff.2 fun i hi => by
      have h1 : lo + i < 16 := by omega
      have h2 := congrArg (·.getLsbD (lo + i)) (iWord_imm op rs rt (immField w))
      simpa only [getLsbD_field, h1, decide_true, Bool.true_and, immField, Nat.zero_add] using h2
  refine and_eq_and_of_fields (.inl ?_) (hrs.imp_left ?_) (hrt.imp_left ?_) (.inl (imm 11 5 (by decide)))
    (.inl (imm 6 5 (by decide))) (.inl (imm 0 6 (by decide)))
  · rw [iWord_op, ← hop, opField]
  · rintro rfl; simp
  · rintro rfl; simp

theorem jWord_targetField {w : Word} {op : BitVec 6} (hop : opField w = op) : jWord op (targetField w) = w := by
  simp only [jWord, ← hop, opField, targetField, field_append]
  exact field_zero_32 w

theorem codeWord_code_field {w : Word} {funct : BitVec 6} (hop : opField w = 0x00#6) (hfunct : functField w = funct) :
    codeWord (field w 6 20) funct = w := by
  simp only [codeWord, ← hop, ← hfunct, opField, functField, field_append]
  exact field_zero_32 w

theorem field_one (w : Word) (k : Nat) : field w k 1 = BitVec.ofBool (w.getLsbD k) := by
  apply BitVec.eq_of_getLsbD_eq
  intro i hi
  obtain rfl : i = 0 := by omega
  simp

theorem bcondzWord_fields {w : Word} {sel : BitVec 4} {sense : Bool} (hop : opField w = 0x01#6)
    (hsel : field w 17 4 = sel) (hsense : w.getLsbD 16 = sense) :
    bcondzWord (rsField w) sel (BitVec.ofBool sense) (immField w) = w := by
  simp only [bcondzWord, ← hop, ← hsel, ← hsense, ← field_one, opField, ofFin_rsField, immField, field_append]
  exact field_zero_32 w

/-- The instruction is well formed and its encoding keeps the bits of `w` that it examines. -/
def KeepsBits (w : Word) (i : Instr) : Prop := i.WellFormed ∧ encode i &&& i.examinedBits = w &&& i.examinedBits

theorem keepsBits_of_encode_eq {w : Word} {i : Instr} (hi : i.WellFormed) (h : encode i = w) : KeepsBits w i :=
  ⟨hi, by rw [h]⟩

theorem keepsBits_decodeBcondz {w : Word} (hop : opField w = 0x01#6) : KeepsBits w (decodeBcondz w) := by
  have hw := bcondzWord_fields hop rfl rfl
  unfold decodeBcondz
  dsimp only
  split
  · next hsel =>
    rw [hsel] at hw
    split
    · next hsense =>
      rw [hsense] at hw
      exact keepsBits_of_encode_eq rfl hw
    · next hsense =>
      rw [eq_false_of_ne_true hsense] at hw
      exact keepsBits_of_encode_eq rfl hw
  · next hsel =>
    have hwf : (field w 17 4 != 0b1000#4) = true := bne_iff_ne.2 hsel
    split
    · next hsense =>
      rw [hsense] at hw
      exact keepsBits_of_encode_eq hwf hw
    · next hsense =>
      rw [eq_false_of_ne_true hsense] at hw
      exact keepsBits_of_encode_eq hwf hw

theorem keepsBits_decodeSpecial {w : Word} {i : Instr} (hop : opField w = 0x00#6) (h : decodeSpecial w = .ok i) :
    KeepsBits w i := by
  unfold decodeSpecial at h
  split at h <;> cases h
  -- sll, srl, sra
  case h_1 | h_2 | h_3 =>
    exact ⟨rfl, rWord_and_eq (m := 0xFC1FFFFF#32) hop (.inr (by decide)) (.inl rfl) (.inl rfl) (.inl rfl) (.inl ‹_›)⟩
  -- jr, mthi, mtlo
  case h_7 | h_12 | h_14 =>
    exact ⟨rfl, rWord_and_eq (m := 0xFFE0003F#32) hop (.inl rfl) (.inr (by decide)) (.inr (by decide))
      (.inr (by decide)) (.inl ‹_›)⟩
  -- jalr
  case h_8 =>
    exact ⟨rfl, rWord_and_eq (m := 0xFFE0F83F#32) hop (.inl rfl) (.inr (by decide)) (.inl rfl) (.inr (by decide))
      (.inl ‹_›)⟩
  -- syscall, break
  case h_9 | h_10 => exact keepsBits_of_encode_eq rfl (codeWord_code_field hop ‹_›)
  -- mfhi, mflo
  case h_11 | h_13 =>
    exact ⟨rfl, rWord_and_eq (m := 0xFC00F83F#32) hop (.inr (by decide)) (.inr (by decide)) (.inl rfl)
      (.inr (by decide)) (.inl ‹_›)⟩
  -- mult, multu, div, divu
  case h_15 | h_16 | h_17 | h_18 =>
    exact ⟨rfl, rWord_and_eq (m := 0xFFFF003F#32) hop (.inl rfl) (.inl rfl) (.inr (by decide)) (.inr (by decide))
      (.inl ‹_›)⟩
  -- the three-register instructions
  all_goals
    exact ⟨rfl, rWord_and_eq (m := 0xFFFFF83F#32) hop (.inl rfl) (.inl rfl) (.inl rfl) (.inr (by decide)) (.inl ‹_›)⟩

theorem rsField_of_field {w : Word} {v : BitVec 5} (h : field w 21 5 = v) : v.toFin = rsField w :=
  congrArg BitVec.toFin h.symm

theorem keepsBits_decodeCop0 {w : Word} {i : Instr} (hop : opField w = 0x10#6) (h : decodeCop0 w = .ok i) :
    KeepsBits w i := by
  unfold decodeCop0 at h
  split at h <;> cases h
  -- mfc0, mtc0
  case h_1 | h_2 =>
    exact ⟨rfl, rWord_and_eq (m := 0xFFFFF800#32) hop (.inl (rsField_of_field ‹_›)) (.inl rfl) (.inl rfl)
      (.inr (by decide)) (.inr (by decide))⟩
  -- rfe
  case h_3 =>
    next hsel =>
    exact ⟨rfl, and_eq_and_of_fields (m := 0xFFE00000#32) (.inl hop.symm) (.inl hsel.symm) (.inr (by decide))
      (.inr (by decide)) (.inr (by decide)) (.inr (by decide))⟩

theorem keepsBits_decode {w : Word} {i : Instr} (h : decode w = .ok i) : KeepsBits w i := by
  unfold decode at h
  split at h
  case h_1 => exact keepsBits_decodeSpecial ‹_› h
  case h_17 => exact keepsBits_decodeCop0 ‹_› h
  all_goals cases h
  -- BCONDZ
  case h_2 => exact keepsBits_decodeBcondz ‹_›
  -- j, jal, cop1, cop2, cop3
  case h_3 | h_4 | h_18 | h_19 | h_20 => exact keepsBits_of_encode_eq rfl (jWord_targetField ‹_›)
  -- blez, bgtz
  case h_7 | h_8 => exact ⟨rfl, iWord_and_eq (m := 0xFFE0FFFF#32) ‹_› (.inl rfl) (.inr (by decide))⟩
  -- lui
  case h_16 => exact ⟨rfl, iWord_and_eq (m := 0xFC1FFFFF#32) ‹_› (.inr (by decide)) (.inl rfl)⟩
  -- the instructions with two registers and an immediate
  all_goals exact ⟨rfl, iWord_and_eq ‹_› (.inl rfl) (.inl rfl)⟩

/-- Settles O2: by the arms of the decoder, each by the fields its format takes from the word. -/
theorem decodedInstructionKeepsTheWordsBits : Obligations.DecodedInstructionKeepsTheWordsBits :=
  fun _ _ h => keepsBits_decode h

end Sys2Proof

namespace Sys2Proof

/-! ## The opcode table -/

/-- The bits that decide which row a word of this primary opcode fits (30_encoding.md R135 to R137). -/
def keyMask (op : BitVec 6) : Word :=
  if op = 0x00#6 then 0xFC00003F#32
  else if op = 0x01#6 then 0xFC1F0000#32
  else if op = 0x10#6 then 0xFFE00000#32
  else 0xFC000000#32

theorem opcodeTable_masks : ∀ r ∈ opcodeTable,
    field r.mask 26 6 = BitVec.allOnes 6 ∧ keyMask (opField r.fixed) &&& r.mask = r.mask := by decide

/-- A word that fits a row has the row's primary opcode. -/
theorem opField_of_fits {r : OpcodeRow} {w : Word} (hr : r ∈ opcodeTable) (h : r.fits w = true) :
    opField w = opField r.fixed := by
  have hw : w &&& r.mask = r.fixed := eq_of_beq h
  rw [← hw, opField, opField, field_and, (opcodeTable_masks r hr).1, BitVec.and_allOnes]

/-- Two words of one primary opcode that agree on the deciding bits fit the same rows. -/
theorem fits_congr {r : OpcodeRow} {w w' : Word} (hr : r ∈ opcodeTable) (hop : opField w' = opField w)
    (h : w' &&& keyMask (opField w) = w &&& keyMask (opField w)) : r.fits w' = r.fits w := by
  by_cases hf : opField r.fixed = opField w
  · have hm := (opcodeTable_masks r hr).2
    rw [hf] at hm
    rw [OpcodeRow.fits, OpcodeRow.fits, ← hm, ← BitVec.and_assoc, ← BitVec.and_assoc, h]
  · have hw : r.fits w = false := eq_false_of_ne_true fun hfit => hf (opField_of_fits hr hfit).symm
    have hw' : r.fits w' = false :=
      eq_false_of_ne_true fun hfit => hf ((opField_of_fits hr hfit).symm.trans hop)
    rw [hw, hw']

theorem tableMnemonic_congr {w w' : Word} (hop : opField w' = opField w)
    (h : w' &&& keyMask (opField w) = w &&& keyMask (opField w)) : tableMnemonic w' = tableMnemonic w := by
  rw [tableMnemonic, tableMnemonic, List.find?_congr fun r hr => fits_congr hr hop h]

/-- The mnemonic of the instruction a word decodes to, if any. -/
def decodedMnemonic (w : Word) : Option String := (decode w).toOption.map Instr.mnemonic

theorem field_congr_of_and {w w' m : Word} {lo len : Nat} (h : w' &&& m = w &&& m)
    (hm : field m lo len = BitVec.allOnes len) : field w' lo len = field w lo len := by
  have := congrArg (field · lo len) h
  simpa only [field_and, hm, BitVec.and_allOnes] using this

theorem decodedMnemonic_congr {w w' : Word} (hop : opField w' = opField w)
    (h : w' &&& keyMask (opField w) = w &&& keyMask (opField w)) : decodedMnemonic w' = decodedMnemonic w := by
  unfold decodedMnemonic decode
  rw [hop]
  split
  case h_1 h0 =>
    rw [h0] at h
    have hf : functField w' = functField w := field_congr_of_and h (by decide)
    unfold decodeSpecial
    rw [hf]
    split <;> rfl
  case h_2 h1 =>
    rw [h1] at h
    have hsel : field w' 17 4 = field w 17 4 := field_congr_of_and h (by decide)
    have hsense : w'.getLsbD 16 = w.getLsbD 16 := by
      have hs : field w' 16 1 = field w 16 1 := field_congr_of_and h (by decide)
      simpa using field_eq_iff.1 hs 0 (by decide)
    unfold decodeBcondz
    rw [hsel, hsense]
    dsimp only
    split <;> split <;> rfl
  case h_17 h10 =>
    rw [h10] at h
    have hs : field w' 21 5 = field w 21 5 := field_congr_of_and h (by decide)
    unfold decodeCop0
    rw [hs]
    split <;> rfl
  all_goals rfl

theorem mnemonic_special : ∀ funct : BitVec 6,
    tableMnemonic (rWord 0x00#6 0 0 0 0 funct) = decodedMnemonic (rWord 0x00#6 0 0 0 0 funct) := by decide

theorem mnemonic_bcondz : ∀ rt : RegIdx,
    tableMnemonic (rWord 0x01#6 0 rt 0 0 0) = decodedMnemonic (rWord 0x01#6 0 rt 0 0 0) := by decide

theorem mnemonic_cop0 : ∀ rs : RegIdx,
    tableMnemonic (rWord 0x10#6 rs 0 0 0 0) = decodedMnemonic (rWord 0x10#6 rs 0 0 0 0) := by decide

theorem mnemonic_primary : ∀ op : BitVec 6,
    tableMnemonic (rWord op 0 0 0 0 0) = decodedMnemonic (rWord op 0 0 0 0 0) := by decide

/-- Each word agrees on the deciding bits with one of finitely many words, on which the two are compared. -/
theorem tableMnemonic_eq_decodedMnemonic (w : Word) : tableMnemonic w = decodedMnemonic w := by
  have transfer : ∀ k, opField k = opField w → k &&& keyMask (opField w) = w &&& keyMask (opField w) →
      tableMnemonic k = decodedMnemonic k → tableMnemonic w = decodedMnemonic w := fun k hop h hk => by
    rw [← tableMnemonic_congr hop h, ← decodedMnemonic_congr hop h, hk]
  by_cases h0 : opField w = 0x00#6
  · refine transfer _ ((rWord_op ..).trans h0.symm) ?_ (mnemonic_special (functField w))
    rw [h0]
    exact rWord_and_eq h0 (.inr (by decide)) (.inr (by decide)) (.inr (by decide)) (.inr (by decide)) (.inl rfl)
  by_cases h1 : opField w = 0x01#6
  · refine transfer _ ((rWord_op ..).trans h1.symm) ?_ (mnemonic_bcondz (rtField w))
    rw [h1]
    exact rWord_and_eq h1 (.inr (by decide)) (.inl rfl) (.inr (by decide)) (.inr (by decide)) (.inr (by decide))
  by_cases h10 : opField w = 0x10#6
  · refine transfer _ ((rWord_op ..).trans h10.symm) ?_ (mnemonic_cop0 (rsField w))
    rw [h10]
    exact rWord_and_eq h10 (.inl rfl) (.inr (by decide)) (.inr (by decide)) (.inr (by decide)) (.inr (by decide))
  · refine transfer _ (rWord_op ..) ?_ (mnemonic_primary (opField w))
    rw [keyMask, if_neg h0, if_neg h1, if_neg h10]
    exact rWord_and_eq rfl (.inr (by decide)) (.inr (by decide)) (.inr (by decide)) (.inr (by decide)) (.inr (by decide))

/-- Settles O3: both read only the deciding bits, and on those they agree. -/
theorem decodeIsTheFirstMatchingTableRow : Obligations.DecodeIsTheFirstMatchingTableRow := by
  refine ⟨fun w i h => ?_, fun w e h => ?_⟩
  · rw [tableMnemonic_eq_decodedMnemonic, decodedMnemonic, h]; rfl
  · rw [tableMnemonic_eq_decodedMnemonic, decodedMnemonic, h]; rfl

/-- Settles O4: each word is run through the decoder. -/
theorem sampleWordsDecode : Obligations.SampleWordsDecode := by
  unfold Obligations.SampleWordsDecode
  decide

end Sys2Proof

/-!
PROOFS. Addresses: alignment as divisibility (spec/20_memory.md R91), which translation keeps, and the RAM addresses of
the DMA engines (spec/50_dma.md R345).
-/

namespace Sys2Proof.Machine

theorem getLsbD_eq_decide (w : Word) (i : Nat) : w.getLsbD i = decide (w.toNat / 2 ^ i % 2 = 1) := by
  rw [BitVec.getLsbD, Nat.testBit_eq_decide_div_mod_eq]

/-- An address is aligned when it is a multiple of the width. -/
theorem aligned_iff (a : Word) (n : Width) : aligned a n = true ↔ a.toNat % n.bytes = 0 := by
  cases n <;> simp only [aligned, Width.bytes, getLsbD_eq_decide]
  case byte => simp [Nat.mod_one]
  case half => simp
  case word =>
    simp
    omega

/-- Translation keeps the low 29 bits of an address. -/
theorem toNat_physical_mod (va : Word) : (physical va).toNat % 2 ^ 29 = va.toNat % 2 ^ 29 := by
  by_cases h4 : va.toNat / 2 ^ 29 = 4
  · rw [toNat_physical_kseg0 h4]
    omega
  by_cases h5 : va.toNat / 2 ^ 29 = 5
  · rw [toNat_physical_kseg1 h5]
    omega
  · rw [physical_eq_self h4 h5]

theorem toNat_physical_mod_bytes (va : Word) (n : Width) : (physical va).toNat % n.bytes = va.toNat % n.bytes := by
  have := toNat_physical_mod va
  cases n <;> simp only [Width.bytes] <;> omega

/-- An aligned access whose first byte lies in RAM lies in RAM. -/
theorem aligned_ram_end {va : Word} {n : Width} (ha : aligned va n = true) (hp : (physical va).toNat < Config.ramSize) :
    (physical va).toNat + n.bytes ≤ Config.ramSize := by
  rw [aligned_iff, ← toNat_physical_mod_bytes] at ha
  simp only [Config.ramSize] at hp ⊢
  cases n <;> simp only [Width.bytes] at ha ⊢ <;> omega

theorem toNat_and_ramMask_le (a : Word) : (a &&& ramMask).toNat ≤ 0x1FFFFC := by
  rw [BitVec.toNat_and]
  exact Nat.and_le_right

end Sys2Proof.Machine

/-!
PROOFS. The invariants of the machine between steps: each from what a step can do (`step_cases`, `step_induct`), a bus
store can do (`memWrite_next`) and a transfer can do (`transfer_induct`).
-/

namespace Sys2Proof.Machine

/-! ## Registers -/

/-- Settles O12: a step commits, or keeps both register files. -/
theorem stepKeepsRegistersCommitted : Obligations.StepKeepsRegistersCommitted := by
  intro s t hs h
  rcases step_cases h with ⟨-, rfl⟩ | ⟨-, -, rfl⟩ | ⟨-, -, w, -, u, -, rfl⟩
  · exact hs
  · exact ⟨hs.committed, hs.zero⟩
  · exact ⟨rfl, commit_x_zero u⟩

/-! ## Memory -/

section
variable {P : Memory → Memory → Prop} (refl : ∀ m, P m m) (trans : ∀ {m n k}, P m n → P n k → P m k)
  (store : ∀ m a n v, a + n.bytes ≤ Config.ramSize → P m (m.store a n v))

include refl trans store in
/-- A DMA register store changes memory by stores into RAM only. -/
theorem dmaWrite_mem_induct {o : Nat} {v : Word} {s t : State} (h : dmaWrite o v s = .next t) : P s.mem t.mem := by
  rcases dmaWrite_next h with ⟨n, b, rfl⟩ | ⟨n, rfl⟩ | ⟨n, h⟩ | rfl | rfl
  case inr.inr.inl =>
    rcases (controlWrite_next h).2 with ⟨-, rfl⟩ | ⟨-, u, hu, rfl⟩
    · exact refl _
    · have key := transfer_induct (P := fun s t => P s.mem t.mem) (fun s => refl s.mem) (fun h₁ h₂ => trans h₁ h₂)
        (fun h => ?gp0) (fun s a v => ?ram) hu
      case gp0 =>
        obtain ⟨g, ms, rfl⟩ := gp0Exec_frame h
        exact refl _
      case ram =>
        have := toNat_and_ramMask_le a
        exact store _ _ .word _ (by simp only [Width.bytes, Config.ramSize]; omega)
      exact key
  all_goals exact refl _

include refl trans store in
/-- An aligned bus store changes memory by stores into RAM only. -/
theorem memWrite_mem_induct {va : Word} {n : Width} {v : Word} {s t : State} (ha : aligned va n = true)
    (h : memWrite va n v s = .next t) : P s.mem t.mem := by
  rcases memWrite_next h with rfl | ⟨⟨row, hrow, hr⟩, rfl⟩ | ⟨o, h⟩ | h | h
  · exact refl _
  · exact store _ _ _ _ (aligned_ram_end ha (regionAt_ram hrow hr))
  · exact dmaWrite_mem_induct refl trans store h
  · obtain ⟨g, ms, rfl⟩ := gp0Exec_frame h
    exact refl _
  · obtain ⟨g, -, rfl⟩ := gp1Exec_next h
    exact refl _

include refl trans store in
/-- A step changes memory by stores into RAM only. -/
theorem step_mem_induct {s t : State} (h : step s = .next t) : P s.mem t.mem := by
  refine step_induct (P := fun s t => P s.mem t.mem) (fun s => refl s.mem) trans (fun s => refl s.mem)
    (fun s => refl s.mem) (fun s => refl s.mem) (fun he => ?_) h
  cases he
  case store ha h => exact memWrite_mem_induct refl trans store ha h
  all_goals exact refl _

end

/-- Settles O13: a store into RAM lists RAM addresses, and keeps the canonical form. -/
theorem stepKeepsMemoryCanonical : Obligations.StepKeepsMemoryCanonical := by
  intro s t hs h
  have key : (s.mem.wf ∧ ∀ c ∈ s.mem, Backed c.1) → t.mem.wf ∧ ∀ c ∈ t.mem, Backed c.1 :=
    step_mem_induct (P := fun m m' => (m.wf ∧ ∀ c ∈ m, Backed c.1) → m'.wf ∧ ∀ c ∈ m', Backed c.1)
      (fun m hm => hm) (fun h₁ h₂ hm => h₂ (h₁ hm)) (fun m a n v ha ⟨hwf, hb⟩ => ⟨Memory.store_wf hwf a n v, ?_⟩) h
  · exact ⟨(key ⟨hs.wf, hs.backed⟩).1, (key ⟨hs.wf, hs.backed⟩).2⟩
  · intro c hc
    rcases Memory.mem_store hc with ⟨-, hc⟩ | hc
    · exact .inl (Nat.lt_of_lt_of_le hc ha)
    · exact hb c hc

/-- Settles O17: a store into RAM leaves every byte above RAM as it was. -/
theorem biosNeverChanges : Obligations.BiosNeverChanges := by
  intro s t hs h a ha _
  have key : s.mem.wf → t.mem.wf ∧ t.mem.read a = s.mem.read a :=
    step_mem_induct (P := fun m m' => m.wf → m'.wf ∧ m'.read a = m.read a) (fun m hm => ⟨hm, rfl⟩)
      (fun h₁ h₂ hm => ⟨(h₂ (h₁ hm).1).1, (h₂ (h₁ hm).1).2.trans (h₁ hm).2⟩)
      (fun m b n v hb hm => ⟨Memory.store_wf hm b n v, ?_⟩) h
  · exact (key hs.wf).2
  · rw [Memory.read_store hm, if_neg]
    simp only [Config.ramSize, Config.biosStart] at hb ha
    omega

/-! ## The DMA controller -/

@[simp] theorem Dma.channel_setChannel_self (d : Dma) (n : Fin 7) (c : DmaChannel) : (d.setChannel n c).channel n = c := by
  simp [Dma.channel, Dma.setChannel]

theorem Dma.channel_setChannel (d : Dma) (n m : Fin 7) (c : DmaChannel) :
    (d.setChannel n c).channel m = if m = n then c else d.channel m := by
  by_cases h : m = n
  · subst h
    simp
  · have hv : n.val ≠ m.val := fun e => h (Fin.ext e.symm)
    simp [Dma.channel, Dma.setChannel, Vector.getElem_set_ne, hv, h]

@[simp] theorem Dma.setChannel_control (d : Dma) (n : Fin 7) (c : DmaChannel) : (d.setChannel n c).control = d.control := rfl

@[simp] theorem Dma.setChannel_interrupt (d : Dma) (n : Fin 7) (c : DmaChannel) :
    (d.setChannel n c).interrupt = d.interrupt := rfl

@[simp] theorem Dma.setChannel_setChannel (d : Dma) (n : Fin 7) (c c' : DmaChannel) :
    (d.setChannel n c).setChannel n c' = d.setChannel n c' := by
  simp [Dma.setChannel]

/-- A control word as it stands between steps (50_dma.md R334, R335, R341). -/
def LegalControl (c : DmaChannel) : Prop :=
  c.control &&& ~~~controlMask = 0 ∧ syncOf c.control ≠ none ∧ c.active = false

theorem DmaInv.legalControl {d : Dma} (h : DmaInv d) (n : Fin 7) : LegalControl (d.channel n) :=
  ⟨h.normalized n, h.meaningful n, h.idle n⟩

/-- A channel with a legal control word may replace another. -/
theorem DmaInv.setChannel {d : Dma} (h : DmaInv d) (n : Fin 7) {c : DmaChannel} (hc : LegalControl c) :
    DmaInv (d.setChannel n c) := by
  have key : ∀ m, LegalControl ((d.setChannel n c).channel m) := fun m => by
    rw [Dma.channel_setChannel]
    split
    · exact hc
    · exact h.legalControl m
  exact ⟨fun m => (key m).1, fun m => (key m).2.1, fun m => (key m).2.2, h.reserved, h.noFlags, h.signal⟩

theorem and_controlMask_normalized (v : Word) : (v &&& controlMask) &&& ~~~controlMask = 0 := by
  rw [BitVec.and_assoc, show controlMask &&& ~~~controlMask = 0#32 by decide]
  exact BitVec.and_zero

theorem syncOf_congr {v w : Word} (h : field v 9 2 = field w 9 2) : syncOf v = syncOf w := by
  rw [syncOf, syncOf, h]

theorem syncOf_and_controlMask (v : Word) : syncOf (v &&& controlMask) = syncOf v :=
  syncOf_congr (by rw [field_and, show field controlMask 9 2 = BitVec.allOnes 2 by decide, BitVec.and_allOnes])

/-- The control word a finished transfer leaves: `enable` and `trigger` clear (50_dma.md R349). -/
def finishedControl (w : Word) : Word := setBit (setBit w 24 false) 28 false

theorem getLsbD_finishedControl (w : Word) (i : Nat) :
    (finishedControl w).getLsbD i = (decide (i ≠ 28) && decide (i ≠ 24) && w.getLsbD i) := by
  rw [finishedControl, getLsbD_setBit, getLsbD_setBit]
  by_cases h28 : i = 28
  · simp [h28]
  · by_cases h24 : i = 24
    · simp [h24]
    · simp [h28, h24]

theorem finishedControl_eq_and (w : Word) : finishedControl w = w &&& 0xEEFFFFFF#32 := by
  apply BitVec.eq_of_getLsbD_eq
  intro i hi
  have mask : (0xEEFFFFFF#32).getLsbD i = (decide (i ≠ 28) && decide (i ≠ 24)) := by
    revert i
    decide
  rw [getLsbD_finishedControl, BitVec.getLsbD_and, mask, Bool.and_comm]

theorem finishTransfer_eq_setChannel (n : Fin 7) (s : State) :
    finishTransfer n s = s.setChannel n { s.channel n with control := finishedControl (s.channel n).control } := rfl

/-- The end of a transfer whose channel holds `c`. -/
theorem finishTransfer_dma {n : Fin 7} {c : DmaChannel} {d : Dma} {u : State} (h : u.dma = d.setChannel n c) :
    (finishTransfer n u).dma = d.setChannel n { c with control := finishedControl c.control } := by
  rw [finishTransfer_eq_setChannel, State.setChannel_dma, State.channel, h, Dma.channel_setChannel_self,
    Dma.setChannel_setChannel]

theorem legalControl_finished {c : DmaChannel} (hn : c.control &&& ~~~controlMask = 0) (hs : syncOf c.control ≠ none) :
    LegalControl { c with control := finishedControl c.control } := by
  refine ⟨?_, ?_, ?_⟩
  · rw [finishedControl_eq_and, BitVec.and_assoc, BitVec.and_comm 0xEEFFFFFF#32, ← BitVec.and_assoc, hn]
    exact BitVec.zero_and
  · rwa [syncOf_congr (w := c.control)]
    rw [finishedControl_eq_and, field_and, show field 0xEEFFFFFF#32 9 2 = BitVec.allOnes 2 by decide, BitVec.and_allOnes]
  · rw [DmaChannel.active, getLsbD_finishedControl]
    rfl

/-! ### The interrupt register (50_dma.md R338, R339, R342) -/

/-- The signal by bits: forced, or enabled with an enabled channel's flag set. -/
theorem irqSignal_iff (w : Word) :
    irqSignal w = true ↔ w.getLsbD 15 = true ∨
      (w.getLsbD 23 = true ∧ ∃ n, n < 7 ∧ w.getLsbD (16 + n) = true ∧ w.getLsbD (24 + n) = true) := by
  have any : (field w 16 7 &&& field w 24 7 != 0#7) = true ↔
      ∃ n, n < 7 ∧ w.getLsbD (16 + n) = true ∧ w.getLsbD (24 + n) = true := by
    rw [bne_iff_ne, ne_eq, ← not_iff_not, not_not]
    constructor
    · rintro h ⟨n, hn, h1, h2⟩
      have := congrArg (·.getLsbD n) h
      simp [hn, h1, h2] at this
    · intro h
      apply BitVec.eq_of_getLsbD_eq
      intro n hn
      have := fun h1 h2 => h ⟨n, hn, h1, h2⟩
      simpa [hn] using this
  rw [irqSignal, Bool.or_eq_true, Bool.and_eq_true, any]

theorem irqSignal_congr {v w : Word} (h : ∀ i, 15 ≤ i → i < 31 → v.getLsbD i = w.getLsbD i) :
    irqSignal v = irqSignal w := by
  have h1 : field v 16 7 = field w 16 7 := field_eq_iff.2 fun i hi => h _ (by omega) (by omega)
  have h2 : field v 24 7 = field w 24 7 := field_eq_iff.2 fun i hi => h _ (by omega) (by omega)
  rw [irqSignal, irqSignal, h1, h2, h 15 (by decide) (by decide), h 23 (by decide) (by decide)]

/-- A read answers the stored bits below the signal, with zeros in 14:6. -/
theorem getLsbD_interruptRead (w : Word) {i : Nat} (hi : i < 31) :
    (interruptRead w).getLsbD i = if 6 ≤ i ∧ i < 15 then false else w.getLsbD i := by
  rw [interruptRead, getLsbD_setBit, getLsbD_setField, if_neg (by omega)]
  simp

@[simp] theorem getLsbD_interruptRead_31 (w : Word) : (interruptRead w).getLsbD 31 = irqSignal w := by
  rw [interruptRead, getLsbD_setBit, if_pos rfl]
  rfl

/-- A write below the signal: flags are kept where not acknowledged, 14:6 are zero, the rest is written. -/
theorem getLsbD_interruptWrite (old v : Word) {i : Nat} (hi : i < 31) :
    (interruptWrite old v).getLsbD i =
      if 24 ≤ i then old.getLsbD i && !v.getLsbD i else if 6 ≤ i ∧ i < 15 then false else v.getLsbD i := by
  unfold interruptWrite
  dsimp only
  rw [getLsbD_setBit, if_neg (by omega), getLsbD_setField, if_neg (by omega), getLsbD_setField, getLsbD_setField]
  by_cases h24 : 24 ≤ i
  · have h1 : i - 24 < 7 := by omega
    have h2 : ¬ i < 15 := by omega
    have h3 : 24 + (i - 24) = i := by omega
    have h4 : i < 32 := by omega
    simp [h24, h1, h2, h3, h4, hi]
  · simp [h24]

theorem getLsbD_interruptWrite_31 (old v : Word) :
    (interruptWrite old v).getLsbD 31 = irqSignal (interruptWrite old v) := by
  unfold interruptWrite
  dsimp only
  rw [getLsbD_setBit, if_pos rfl]
  exact irqSignal_congr fun i h1 h2 => by rw [getLsbD_setBit, if_neg (by omega)]

theorem DmaInv.interruptWrite {d : Dma} (h : DmaInv d) (v : Word) :
    DmaInv { d with interrupt := interruptWrite d.interrupt v } := by
  have flag : ∀ i, 24 ≤ i → i < 31 → (Machine.interruptWrite d.interrupt v).getLsbD i = false := fun i h1 h2 => by
    have hf := congrArg (·.getLsbD (i - 24)) h.noFlags
    have h3 : i - 24 < 7 := by omega
    have h4 : 24 + (i - 24) = i := by omega
    have h5 : d.interrupt.getLsbD i = false := by simpa [h3, h4] using hf
    rw [getLsbD_interruptWrite _ _ h2, if_pos h1, h5, Bool.false_and]
  refine ⟨h.normalized, h.meaningful, h.idle, ?_, ?_, ?_⟩
  · apply BitVec.eq_of_getLsbD_eq
    intro i hi
    have h1 : 6 + i < 31 := by omega
    have h2 : ¬ 24 ≤ 6 + i := by omega
    have h3 : 6 + i < 15 := by omega
    simp [hi, getLsbD_interruptWrite _ _ h1, h2, h3]
  · apply BitVec.eq_of_getLsbD_eq
    intro i hi
    simp [hi, flag (24 + i) (by omega) (by omega)]
  · show (Machine.interruptWrite d.interrupt v).getLsbD 31 = (Machine.interruptWrite d.interrupt v).getLsbD 15
    rw [getLsbD_interruptWrite_31, Bool.eq_iff_iff, irqSignal_iff]
    refine or_iff_left ?_
    rintro ⟨-, n, hn, -, h24⟩
    rw [flag _ (by omega) (by omega)] at h24
    cases h24

/-- A control write leaves the written channel with a legal control word, transfer or not. -/
theorem DmaInv.controlWrite {n : Fin 7} {v : Word} {s t : State} (hs : DmaInv s.dma) (h : controlWrite n v s = .next t) :
    DmaInv t.dma := by
  obtain ⟨hsync, h⟩ := controlWrite_next h
  rw [← syncOf_and_controlMask] at hsync
  have hnorm := and_controlMask_normalized v
  rcases h with ⟨hidle, rfl⟩ | ⟨-, u, hu, rfl⟩
  · exact hs.setChannel n ⟨hnorm, hsync, hidle⟩
  · obtain ⟨m, g, ms, rfl⟩ := transfer_frame hu
    have legal := legalControl_finished (c := { s.channel n with control := v &&& controlMask }) hnorm hsync
    rw [finishTransfer_dma (d := s.dma) rfl]
    exact hs.setChannel n legal

theorem DmaInv.dmaWrite {o : Nat} {v : Word} {s t : State} (hs : DmaInv s.dma) (h : dmaWrite o v s = .next t) :
    DmaInv t.dma := by
  rcases dmaWrite_next h with ⟨n, b, rfl⟩ | ⟨n, rfl⟩ | ⟨n, h⟩ | rfl | rfl
  · exact hs.setChannel n (hs.legalControl n)
  · exact hs.setChannel n (hs.legalControl n)
  · exact hs.controlWrite h
  · exact ⟨hs.normalized, hs.meaningful, hs.idle, hs.reserved, hs.noFlags, hs.signal⟩
  · exact hs.interruptWrite v

theorem DmaInv.memWrite {va : Word} {n : Width} {v : Word} {s t : State} (hs : DmaInv s.dma)
    (h : memWrite va n v s = .next t) : DmaInv t.dma := by
  rcases memWrite_next h with rfl | ⟨-, rfl⟩ | ⟨o, h⟩ | h | h
  · exact hs
  · exact hs
  · exact hs.dmaWrite h
  · obtain ⟨g, ms, rfl⟩ := gp0Exec_frame h
    exact hs
  · obtain ⟨g, -, rfl⟩ := gp1Exec_next h
    exact hs

/-- Settles O14: only a store to a DMA register writes the controller, and each such store keeps its invariant. -/
theorem stepKeepsDmaControllerLegal : Obligations.StepKeepsDmaControllerLegal := by
  intro s t hs h
  refine step_induct (P := fun s t => DmaInv s.dma → DmaInv t.dma) (fun s hs => hs) (fun h₁ h₂ hs => h₂ (h₁ hs))
    (fun s hs => hs) (fun s hs => hs) (fun s hs => hs) (fun he hs => ?_) h hs
  cases he
  case store h => exact hs.memWrite h
  all_goals exact hs

end Sys2Proof.Machine

/-!
PROOFS. The GPU front end between words (spec/51_gpu.md R380 to R390, R419 to R428): the status bits the commands write,
one bit at a time, and the parser invariant through one word.
-/

namespace Sys2Proof.Machine

/-! ## Status bits -/

theorem getLsbD_gp0DrawMode (v : Word) (g : Gpu) {i : Nat} (h11 : ¬ i < 11) (h15 : i ≠ 15) :
    (gp0DrawMode v g).status.getLsbD i = g.status.getLsbD i := by
  rw [gp0DrawMode, getLsbD_setBit, if_neg h15, getLsbD_setField, if_neg (by omega)]

theorem getLsbD_gp0MaskBits (v : Word) (g : Gpu) {i : Nat} (h11 : i ≠ 11) (h12 : i ≠ 12) :
    (gp0MaskBits v g).status.getLsbD i = g.status.getLsbD i := by
  rw [gp0MaskBits, getLsbD_setBit, if_neg h12, getLsbD_setBit, if_neg h11]

/-- The request bit by the two direction bits (51_gpu.md R424). -/
theorem dmaRequest_field (status w : Word) :
    dmaRequest status (field w 0 2) =
      if w.getLsbD 1 then (if w.getLsbD 0 then status.getLsbD 27 else status.getLsbD 28) else w.getLsbD 0 := by
  have bits : ∀ d : BitVec 2, dmaRequest status d =
      if d.getLsbD 1 then (if d.getLsbD 0 then status.getLsbD 27 else status.getLsbD 28) else d.getLsbD 0 := by
    intro d
    have all : ∀ d : BitVec 2, d = 0#2 ∨ d = 1#2 ∨ d = 2#2 ∨ d = 3#2 := by decide
    rcases all d with rfl | rfl | rfl | rfl <;> rfl
  simpa using bits (field w 0 2)

theorem getLsbD_gp1DmaDirection (w : Word) (g : Gpu) (k : Nat) :
    (gp1DmaDirection w g).status.getLsbD k =
      if k = 29 then w.getLsbD 0 else if k = 30 then w.getLsbD 1
      else if k = 25 then dmaRequest g.status (field w 0 2) else g.status.getLsbD k := by
  unfold gp1DmaDirection
  dsimp only
  rw [getLsbD_setBit, getLsbD_setField]
  by_cases h29 : k = 29
  · simp [h29]
  by_cases h30 : k = 30
  · simp [h30]
  by_cases h25 : k = 25
  · simp [h25]
  · have h : ¬ (29 ≤ k ∧ k < 29 + 2) := by omega
    simp [h29, h30, h25, h]

theorem getLsbD_gp1DisplayMode (w status : Word) (k : Nat) :
    (gp1DisplayMode w status).getLsbD k =
      if k = 17 then w.getLsbD 0 else if k = 18 then w.getLsbD 1 else if k = 19 then false
      else if k = 20 then w.getLsbD 3 else if k = 21 then w.getLsbD 4 else if k = 22 then w.getLsbD 5
      else if k = 16 then w.getLsbD 6 else if k = 14 then w.getLsbD 7 else status.getLsbD k := by
  unfold gp1DisplayMode
  dsimp only
  rw [getLsbD_setBit, getLsbD_setBit, getLsbD_setField, getLsbD_setBit, getLsbD_setField]
  by_cases h : 14 ≤ k ∧ k ≤ 22
  · obtain ⟨hlo, hhi⟩ := h
    interval_cases k <;> simp
  · have h1 : ¬ (20 ≤ k ∧ k < 20 + 3) := by omega
    have h2 : ¬ (17 ≤ k ∧ k < 17 + 2) := by omega
    simp only [h1, h2, if_false, show k ≠ 14 by omega, show k ≠ 16 by omega, show k ≠ 17 by omega,
      show k ≠ 18 by omega, show k ≠ 19 by omega, show k ≠ 20 by omega, show k ≠ 21 by omega, show k ≠ 22 by omega]

/-! ## The GPU invariant -/

/-- A status word that keeps the bits the invariant speaks of keeps the invariant. -/
theorem GpuInv.setStatus {g : Gpu} (h : GpuInv g) {v : Word}
    (hv : ∀ i, i = 13 ∨ i = 19 ∨ 24 ≤ i → v.getLsbD i = g.status.getLsbD i) : GpuInv { g with status := v } where
  fieldBit := (hv 13 (by decide)).trans h.fieldBit
  vres := (hv 19 (by decide)).trans h.vres
  irq := (hv 24 (by decide)).trans h.irq
  cmdReady := (hv 26 (by decide)).trans h.cmdReady
  vramReady := (hv 27 (by decide)).trans h.vramReady
  dmaReady := (hv 28 (by decide)).trans h.dmaReady
  lineStatus := (hv 31 (by decide)).trans h.lineStatus
  request := by
    show v.getLsbD 25 = (v.getLsbD 29 != v.getLsbD 30)
    rw [hv 25 (by decide), hv 29 (by decide), hv 30 (by decide)]
    exact h.request
  evenStart := h.evenStart
  capacity := h.capacity
  parser := h.parser

/-- A parser state that meets its invariant may replace another. -/
theorem GpuInv.setParser {g : Gpu} (h : GpuInv g) {buf : List Word} {op : BitVec 8} {left : Word} {mode : Gp0Mode}
    (hcap : buf.length ≤ 12) (hp : ParserInv { g with buf := buf, opcode := op, argRemaining := left, mode := mode }) :
    GpuInv { g with buf := buf, opcode := op, argRemaining := left, mode := mode } :=
  { h with capacity := hcap, parser := hp }

theorem GpuInv.drawMode {g : Gpu} (h : GpuInv g) (v : Word) : GpuInv (gp0DrawMode v g) :=
  { h.setStatus (fun _ hi => getLsbD_gp0DrawMode v g (by omega) (by omega)) with }

theorem GpuInv.maskBits {g : Gpu} (h : GpuInv g) (v : Word) : GpuInv (gp0MaskBits v g) :=
  h.setStatus fun _ hi => getLsbD_gp0MaskBits v g (by omega) (by omega)

/-- The pixel words of an image fit the counter. -/
theorem imageWords_lt (size : Word) : imageWords size < 2 ^ 32 := by
  have h1 := (field size 0 16).isLt
  have h2 := (field size 16 16).isLt
  have : (field size 0 16).toNat * (field size 16 16).toNat ≤ 65535 * 65535 := Nat.mul_le_mul (by omega) (by omega)
  unfold imageWords
  omega

theorem Gp0Cmd.argc_ne_zero (c : Gp0Cmd) : c.argc ≠ 0 := by cases c <;> decide

theorem Gp0Cmd.argc_le (c : Gp0Cmd) : c.argc.toNat ≤ 9 := by cases c <;> decide

/-- A command's action on an assembled buffer keeps the invariant. -/
theorem GpuInv.run {c : Gp0Cmd} {s t : State} (hs : GpuInv s.gpu) (h : c.run s = .next t) : GpuInv t.gpu := by
  cases c <;> simp only [Gp0Cmd.run, Host.Outcome.next.injEq] at h
  case imageLoad =>
    unfold gp0ImageLoad at h
    dsimp only at h
    split at h
    · simp at h
    · next hn =>
      cases h
      refine hs.setParser (buf := s.gpu.buf) (op := s.gpu.opcode) hs.capacity ?_
      intro h0
      have := congrArg BitVec.toNat h0
      rw [BitVec.toNat_ofNat, Nat.mod_eq_of_lt (imageWords_lt _)] at this
      exact hn this
  case drawMode => subst h; exact hs.drawMode _
  case maskBits => subst h; exact hs.maskBits _
  all_goals
    subst h
    exact { hs with }

/-- A word taken into the buffer of a command with a row and with words to come keeps the invariant. -/
theorem GpuInv.push {w : Word} {s t : State} {c : Gp0Cmd} (hs : GpuInv s.gpu) (hm : s.gpu.mode = .command)
    (hc : gp0Lookup s.gpu.opcode = some c) (hlen : s.gpu.buf.length + s.gpu.argRemaining.toNat = c.argc.toNat)
    (h0 : s.gpu.argRemaining ≠ 0) (h : gp0Push w s = .next t) : GpuInv t.gpu := by
  have hpos : 0 < s.gpu.argRemaining.toNat := Nat.pos_of_ne_zero fun h => h0 (BitVec.eq_of_toNat_eq h)
  have hsub : (s.gpu.argRemaining - 1).toNat = s.gpu.argRemaining.toNat - 1 := by
    have := s.gpu.argRemaining.isLt
    bv_omega
  have hargc := c.argc_le
  have hg : GpuInv { s.gpu with buf := s.gpu.buf ++ [w], argRemaining := s.gpu.argRemaining - 1 } := by
    refine { hs with capacity := ?_, parser := ?_ }
    · rw [List.length_append, List.length_singleton]
      omega
    · unfold ParserInv
      simp only [hm]
      refine .inr ⟨c, hc, ?_⟩
      rw [List.length_append, List.length_singleton, hsub]
      omega
  unfold gp0Push at h
  dsimp only at h
  split at h
  · split at h
    · exact GpuInv.run (s := s.setGpu _) hg h
    · cases h; exact hg
  · cases h; exact hg

theorem GpuInv.swallow {g : Gpu} (h : GpuInv g) : GpuInv (gp0Swallow g) := by
  refine { h with parser := ?_ }
  unfold ParserInv gp0Swallow
  dsimp only
  by_cases h0 : g.argRemaining - 1 = 0
  · rw [if_pos h0]
    exact .inl h0
  · rw [if_neg h0]
    exact h0

/-- A word at GP0 keeps the invariant. -/
theorem GpuInv.gp0Exec {w : Word} {s t : State} (hs : GpuInv s.gpu) (h : gp0Exec w s = .next t) : GpuInv t.gpu := by
  have hp := hs.parser
  unfold Machine.gp0Exec at h
  unfold ParserInv at hp
  split at h
  · cases h
    exact hs.swallow
  · next hm =>
    rw [hm] at hp
    split at h
    · split at h
      · simp at h
      · next c hc =>
        have hg : GpuInv { s.gpu with opcode := field w 24 8, buf := [], argRemaining := c.argc } := by
          refine { hs with capacity := by simp, parser := ?_ }
          unfold ParserInv
          simp only [hm]
          exact .inr ⟨c, hc, by simp⟩
        exact GpuInv.push (s := s.setGpu _) hg hm hc (by simp) c.argc_ne_zero h
    · next h0 =>
      obtain ⟨c, hc, hlen⟩ := hp.resolve_left h0
      exact hs.push hm hc hlen h0 h

theorem gpuInv_gp1Reset (g : Gpu) : GpuInv (gp1Reset g) := by
  have status : (gp1Reset g).status = 0x14802000#32 := rfl
  constructor
  case evenStart => exact show (0#10).getLsbD 0 = false by decide
  case capacity => exact Nat.zero_le _
  case parser => exact .inl rfl
  all_goals
    rw [status]
    decide

theorem GpuInv.dmaDirection {g : Gpu} (h : GpuInv g) (w : Word) : GpuInv (gp1DmaDirection w g) where
  fieldBit := (getLsbD_gp1DmaDirection w g 13).trans h.fieldBit
  vres := (getLsbD_gp1DmaDirection w g 19).trans h.vres
  irq := (getLsbD_gp1DmaDirection w g 24).trans h.irq
  cmdReady := (getLsbD_gp1DmaDirection w g 26).trans h.cmdReady
  vramReady := (getLsbD_gp1DmaDirection w g 27).trans h.vramReady
  dmaReady := (getLsbD_gp1DmaDirection w g 28).trans h.dmaReady
  lineStatus := (getLsbD_gp1DmaDirection w g 31).trans h.lineStatus
  request := by
    rw [getLsbD_gp1DmaDirection w g 25, getLsbD_gp1DmaDirection w g 29, getLsbD_gp1DmaDirection w g 30,
      dmaRequest_field, h.vramReady, h.dmaReady]
    cases w.getLsbD 0 <;> cases w.getLsbD 1 <;> rfl
  evenStart := h.evenStart
  capacity := h.capacity
  parser := h.parser

theorem GpuInv.displayMode {g : Gpu} (h : GpuInv g) (w : Word) :
    GpuInv { g with status := gp1DisplayMode w g.status } := by
  refine h.setStatus fun i hi => ?_
  rw [getLsbD_gp1DisplayMode]
  rcases hi with rfl | rfl | hi
  · rfl
  · exact h.vres.symm
  · simp only [show i ≠ 14 by omega, show i ≠ 16 by omega, show i ≠ 17 by omega, show i ≠ 18 by omega,
      show i ≠ 19 by omega, show i ≠ 20 by omega, show i ≠ 21 by omega, show i ≠ 22 by omega, if_false]

/-- A word at GP1 keeps the invariant. -/
theorem GpuInv.gp1Effect {w : Word} {g g' : Gpu} (hs : GpuInv g) (h : gp1Effect w g = some g') : GpuInv g' := by
  unfold Machine.gp1Effect at h
  split at h <;> cases h
  case h_1 => exact gpuInv_gp1Reset g
  -- reset the command buffer
  case h_2 => exact { hs with capacity := Nat.zero_le _, parser := .inl rfl }
  -- acknowledge the interrupt
  case h_3 =>
    refine hs.setStatus fun i hi => ?_
    rw [getLsbD_setBit]
    split
    · next h24 => rw [h24, hs.irq]; rfl
    · rfl
  -- display enable
  case h_4 => exact hs.setStatus fun i hi => by rw [getLsbD_setBit, if_neg (by omega)]
  case h_5 => exact hs.dmaDirection w
  -- display start
  case h_6 => exact { hs with evenStart := by simp }
  -- display ranges
  case h_7 | h_8 => exact { hs with }
  case h_9 => exact hs.displayMode w

theorem GpuInv.gp1Exec {w : Word} {s t : State} (hs : GpuInv s.gpu) (h : gp1Exec w s = .next t) : GpuInv t.gpu := by
  obtain ⟨g, hg, rfl⟩ := gp1Exec_next h
  exact hs.gp1Effect hg

theorem GpuInv.dmaWrite {o : Nat} {v : Word} {s t : State} (hs : GpuInv s.gpu) (h : dmaWrite o v s = .next t) :
    GpuInv t.gpu := by
  rcases dmaWrite_next h with ⟨n, b, rfl⟩ | ⟨n, rfl⟩ | ⟨n, h⟩ | rfl | rfl
  case inr.inr.inl =>
    rcases (controlWrite_next h).2 with ⟨-, rfl⟩ | ⟨-, u, hu, rfl⟩
    · exact hs
    · have key := transfer_induct (P := fun s t => GpuInv s.gpu → GpuInv t.gpu) (fun s hs => hs)
        (fun h₁ h₂ hs => h₂ (h₁ hs)) (fun h hs => hs.gp0Exec h) (fun s a v hs => hs) hu
      exact key hs
  all_goals exact hs

/-- Settles O15: only words at GP0 and GP1 write the GPU, and each keeps its invariant. -/
theorem stepKeepsGpuLegal : Obligations.StepKeepsGpuLegal := by
  intro s t hs h
  refine step_induct (P := fun s t => GpuInv s.gpu → GpuInv t.gpu) (fun s hs => hs) (fun h₁ h₂ hs => h₂ (h₁ hs))
    (fun s hs => hs) (fun s hs => hs) (fun s hs => hs) (fun he hs => ?_) h hs
  cases he
  case store h =>
    rcases memWrite_next h with rfl | ⟨-, rfl⟩ | ⟨o, h⟩ | h | h
    · exact hs
    · exact hs
    · exact hs.dmaWrite h
    · exact hs.gp0Exec h
    · exact hs.gp1Exec h
  all_goals exact hs

end Sys2Proof.Machine

/-!
PROOFS. What the steps of a run keep besides: the cause register (spec/60_exceptions.md R472), the message sequence
(spec/52_host.md R452) and the shutdown flag (R455); and the step cycle itself (spec/10_state.md R30, R31).
-/

namespace Sys2Proof.Machine

/-- The cause an exception writes, in a delay slot or not (60_exceptions.md R474). -/
def excCause (e : ExcKind) (inSlot : Bool) : Word := if inSlot then (e.code <<< 2) ||| 0x80000000#32 else e.code <<< 2

@[simp] theorem raise_cause (e : ExcKind) (s : State) : (raise e s).cause = excCause e s.inDelaySlot := rfl

theorem excCause_legal (e : ExcKind) (inSlot : Bool) : excCause e inSlot ∈ legalCauses := by
  cases e <;> cases inSlot <;> decide

/-- Settles O16: of the effects only an exception writes the cause, with one of the listed values. -/
theorem stepKeepsCauseLegal : Obligations.StepKeepsCauseLegal := by
  intro s t hs h
  refine step_induct (P := fun s t => s.cause ∈ legalCauses → t.cause ∈ legalCauses) (fun s hs => hs)
    (fun h₁ h₂ hs => h₂ (h₁ hs)) (fun s hs => hs) (fun s hs => hs) (fun s hs => hs) (fun {s t} he hs => ?_) h hs
  cases he
  case exception e =>
    exact excCause_legal e s.inDelaySlot
  case store h =>
    obtain ⟨m, d, g, ms, rfl⟩ := memWrite_frame h
    exact hs
  all_goals exact hs

/-- Settles O18: of the effects only a bus store emits messages, and it appends them. -/
theorem messagesOnlyGrow : Obligations.MessagesOnlyGrow := by
  intro s t h
  refine step_induct (P := fun s t => s.messages <+: t.messages) (fun s => List.prefix_rfl)
    (fun h₁ h₂ => h₁.trans h₂) (fun s => List.prefix_rfl) (fun s => List.prefix_rfl) (fun s => List.prefix_rfl)
    (fun he => ?_) h
  cases he
  case store h =>
    obtain ⟨m, d, g, ms, rfl⟩ := memWrite_frame h
    exact ⟨ms, rfl⟩
  all_goals exact List.prefix_rfl

/-- Settles O8: the flag ends the step before anything else, and no effect writes it. -/
theorem shutdownStopsTheMachine : Obligations.ShutdownStopsTheMachine := by
  refine ⟨fun s => step_shutdown rfl, fun s t h => ?_⟩
  refine step_induct (P := fun s t => t.shutdown = s.shutdown) (fun s => rfl) (fun h₁ h₂ => h₂.trans h₁)
    (fun s => rfl) (fun s => rfl) (fun s => rfl) (fun he => ?_) h
  cases he
  case store h =>
    obtain ⟨m, d, g, ms, rfl⟩ := memWrite_frame h
    rfl
  all_goals rfl

/-! ## Exception entry (60_exceptions.md R474) -/

/-- The bits of a pushed status register: the mode pairs move up by one, the rest stays. -/
theorem getLsbD_pushMode (sr : Word) {i : Nat} (hi : i < 32) :
    (pushMode sr).getLsbD i = if i < 6 then decide (2 ≤ i) && sr.getLsbD (i - 2) else sr.getLsbD i := by
  have low : ∀ i < 32, (0x3F#32).getLsbD i = decide (i < 6) := by decide
  have high : ∀ i < 32, (0xFFFFFFC0#32).getLsbD i = !decide (i < 6) := by decide
  unfold pushMode
  simp only [BitVec.getLsbD_or, BitVec.getLsbD_and, BitVec.getLsbD_shiftLeft, low i hi, high i hi]
  by_cases h6 : i < 6
  · have h1 : i - 2 < 6 := by omega
    by_cases h2 : 2 ≤ i
    · have h3 : ¬ i < 2 := by omega
      simp [h6, hi, low _ (show i - 2 < 32 by omega), h1, h2, h3]
    · have h3 : i < 2 := by omega
      simp [h6, h2, h3]
  · simp [h6]

/-- The bits of a popped status register: the mode pairs move down by one, the old pair stays too. -/
theorem getLsbD_popMode (sr : Word) {i : Nat} (hi : i < 32) :
    (popMode sr).getLsbD i = if i < 4 then sr.getLsbD (i + 2) else sr.getLsbD i := by
  have low : ∀ i < 34, (0x3F#32).getLsbD i = decide (i < 6) := by decide
  have high : ∀ i < 32, (0xFFFFFFC0#32).getLsbD i = !decide (i < 6) := by decide
  have old : ∀ i < 32, (0x30#32).getLsbD i = (decide (4 ≤ i) && decide (i < 6)) := by decide
  unfold popMode
  simp only [BitVec.getLsbD_or, BitVec.getLsbD_and, BitVec.getLsbD_ushiftRight, low i (by omega), high i hi, old i hi,
    Nat.add_comm 2 i, low (i + 2) (by omega)]
  by_cases h4 : i < 4
  · have h6 : i < 6 := by omega
    have h7 : i + 2 < 6 := by omega
    have h8 : ¬ 4 ≤ i := by omega
    simp [h4, h6, h7, h8]
  · have h7 : ¬ i + 2 < 6 := by omega
    by_cases h6 : i < 6
    · have h8 : 4 ≤ i := by omega
      simp [h4, h6, h7, h8]
    · simp [h4, h6, h7]

/-- `raise` is exception entry, with the exception's two causes. -/
theorem raise_entersException {e : ExcKind} {outside inSlot : Word} (ho : excCause e false = outside)
    (hi : excCause e true = inSlot) (s : State) : EntersException outside inSlot s (raise e s) where
  frame := rfl
  pc := rfl
  nextPc := rfl
  current := by
    apply BitVec.eq_of_getLsbD_eq
    intro i hi
    rw [getLsbD_field, raise_sr, getLsbD_pushMode _ (by omega), if_pos (by omega)]
    have h2 : ¬ 2 ≤ i := by omega
    simp [h2]
  previous := field_eq_iff.2 fun i hi => by
    rw [raise_sr, getLsbD_pushMode _ (by omega), if_pos (by omega)]
    simp
  old := field_eq_iff.2 fun i hi => by
    rw [raise_sr, getLsbD_pushMode _ (by omega), if_pos (by omega)]
    simp [show 4 + i - 2 = 2 + i by omega, show 2 ≤ 4 + i by omega]
  upper := field_eq_iff.2 fun i hi => by
    rw [raise_sr, getLsbD_pushMode _ (by omega), if_neg (by omega)]
  cause := by
    rw [raise_cause, ← ho, ← hi]
    cases s.inDelaySlot <;> rfl
  epc := rfl

section
variable (s : State)

theorem loadAddr_entersException : EntersException 0x00000010 0x80000010 s (raise .loadAddr s) :=
  raise_entersException (by decide) (by decide) s

theorem storeAddr_entersException : EntersException 0x00000014 0x80000014 s (raise .storeAddr s) :=
  raise_entersException (by decide) (by decide) s

theorem sysCall_entersException : EntersException 0x00000020 0x80000020 s (raise .sysCall s) :=
  raise_entersException (by decide) (by decide) s

theorem breakpoint_entersException : EntersException 0x00000024 0x80000024 s (raise .breakpoint s) :=
  raise_entersException (by decide) (by decide) s

theorem illegalInstr_entersException : EntersException 0x00000028 0x80000028 s (raise .illegalInstr s) :=
  raise_entersException (by decide) (by decide) s

theorem copE_entersException : EntersException 0x0000002C 0x8000002C s (raise .copE s) :=
  raise_entersException (by decide) (by decide) s

theorem overflow_entersException : EntersException 0x00000030 0x80000030 s (raise .overflow s) :=
  raise_entersException (by decide) (by decide) s

end

/-! ## The step cycle -/

/-- Settles O5: the step of an aligned `pc` whose word is known to decode. -/
theorem stepRunsTheDecodedInstruction : Obligations.StepRunsTheDecodedInstruction := by
  intro s w i hs ha hw hi
  rw [step_aligned hs ((aligned_word_iff _).2 ha), fetch_capturePc, hw, andThen_next, execWord, hi]
  rfl

/-- Settles O6: a word that decodes to nothing raises, and the step commits as after any instruction. -/
theorem undecodableWordTakesIllegalInstruction : Obligations.UndecodableWordTakesIllegalInstruction := by
  intro s w e hs ha hw he
  refine ⟨raise .illegalInstr (advance (capturePc s)), illegalInstr_entersException _, ?_⟩
  rw [step_aligned hs ((aligned_word_iff _).2 ha), fetch_capturePc, hw, andThen_next, execWord, he]
  rfl

/-- Settles O7: a misaligned `pc` raises before the fetch, and a fault of the fetch ends the step. -/
theorem misalignedOrRefusedFetch : Obligations.MisalignedOrRefusedFetch := by
  refine ⟨fun s hs ha => ?_, fun s f hs ha hf => ?_⟩
  · have h : aligned s.pc .word = false := eq_false_of_ne_true fun h => ha ((aligned_word_iff _).1 h)
    exact ⟨_, step_misaligned hs h, loadAddr_entersException (capturePc s)⟩
  · rw [step_aligned hs ((aligned_word_iff _).2 ha), fetch_capturePc, hf, andThen_fault]

end Sys2Proof.Machine

/-!
PROOFS. Words as integers: the immediates (spec/30_encoding.md R134), results that fit in 32 bits, and the one effect of
a register write.
-/

namespace Sys2Proof.Machine

@[simp] theorem State.x_writeReg (s : State) (r q : RegIdx) (v : Word) : (s.writeReg r v).x q = s.x q := rfl

theorem writesReg_writeReg (s : State) (r : RegIdx) (v : Word) : WritesReg s (s.writeReg r v) r v :=
  ⟨rfl, RegFile.get_set_self _ _ _, fun _ hq => RegFile.get_set_ne _ _ hq⟩

/-- Words lie in the signed 32-bit range. -/
theorem toInt_bounds (w : Word) : -2 ^ 31 ≤ w.toInt ∧ w.toInt < 2 ^ 31 := ⟨w.le_toInt, w.toInt_lt⟩

theorem bmod_of_fits {r : Int} (h : -2 ^ 31 ≤ r ∧ r < 2 ^ 31) : r.bmod (2 ^ 32) = r :=
  Int.bmod_eq_of_le_mul_two (by omega) (by omega)

theorem toInt_ofInt_of_fits {r : Int} (h : -2 ^ 31 ≤ r ∧ r < 2 ^ 31) : (BitVec.ofInt 32 r).toInt = r := by
  rw [BitVec.toInt_ofInt, bmod_of_fits h]

@[simp] theorem toInt_signedImm (imm : BitVec 16) : (signedImm imm).toInt = imm.toInt :=
  BitVec.toInt_signExtend_of_le (by decide)

theorem signedImm_eq_ofInt (imm : BitVec 16) : signedImm imm = BitVec.ofInt 32 imm.toInt := rfl

theorem toNat_signedImm (imm : BitVec 16) : ((signedImm imm).toNat : Int) = imm.toInt % 2 ^ 32 := by
  rw [signedImm_eq_ofInt, BitVec.toNat_ofInt]
  exact Int.toNat_of_nonneg (Int.emod_nonneg _ (by decide))

/-- The branch target in integers: the delay slot's address and four times the signed immediate. -/
theorem branchTarget_eq (s : State) (imm : BitVec 16) : branchTarget s imm = s.pc + BitVec.ofInt 32 (4 * imm.toInt) := by
  rw [branchTarget, BitVec.shiftLeft_eq_mul_twoPow, BitVec.ofInt_mul, ← signedImm_eq_ofInt, BitVec.mul_comm]
  rfl

end Sys2Proof.Machine

/-!
PROOFS. Register-register and immediate arithmetic, logic, comparisons and shifts (spec/41_alu_register.md R191 to R207,
spec/42_alu_immediate.md R221 to R228).
-/

namespace Sys2Proof.Machine

/-! ## Overflow -/

theorem outOfSigned_iff (r : Int) : outOfSigned r = true ↔ ¬(-2 ^ 31 ≤ r ∧ r < 2 ^ 31) := by
  rw [outOfSigned, Bool.or_eq_true, decide_eq_true_iff, decide_eq_true_iff]
  omega

/-- A result that fits is written, as a word of its signed value. -/
theorem writeOrOverflow_fits {r : Int} (h : -2 ^ 31 ≤ r ∧ r < 2 ^ 31) (s : State) (rd : RegIdx) {v : Word}
    (hv : v.toInt = r.bmod (2 ^ 32)) :
    WritesReg s (writeOrOverflow (outOfSigned r) rd v s) rd v ∧ v.toInt = r := by
  rw [writeOrOverflow, if_neg (fun ho => (outOfSigned_iff r).1 ho h)]
  exact ⟨writesReg_writeReg s rd v, hv.trans (bmod_of_fits h)⟩

/-- A result that does not fit raises. -/
theorem writeOrOverflow_overflows {r : Int} (h : ¬(-2 ^ 31 ≤ r ∧ r < 2 ^ 31)) (s : State) (rd : RegIdx) (v : Word) :
    EntersException 0x00000030 0x80000030 s (writeOrOverflow (outOfSigned r) rd v s) := by
  rw [writeOrOverflow, if_pos ((outOfSigned_iff r).2 h)]
  exact overflow_entersException s

/-- Settles O27: the overflow test is on the exact result, and a result that fits is its own remainder. -/
theorem signedArithmeticTrapsOnOverflow : Obligations.SignedArithmeticTrapsOnOverflow := by
  intro s rd rt rs imm
  have add : ((s.x rs) + (s.x rt)).toInt = ((s.x rs).toInt + (s.x rt).toInt).bmod (2 ^ 32) := BitVec.toInt_add ..
  have sub : ((s.x rs) - (s.x rt)).toInt = ((s.x rs).toInt - (s.x rt).toInt).bmod (2 ^ 32) := BitVec.toInt_sub ..
  have addi : ((s.x rs) + signedImm imm).toInt = ((s.x rs).toInt + imm.toInt).bmod (2 ^ 32) := by
    rw [BitVec.toInt_add, toInt_signedImm]
  have test : addOverflows (s.x rs) (signedImm imm) = outOfSigned ((s.x rs).toInt + imm.toInt) := by
    rw [addOverflows, toInt_signedImm]
  refine ⟨fun h => ⟨_, _, rfl, writeOrOverflow_fits h s rd add⟩, fun h => ⟨_, _, rfl, writeOrOverflow_fits h s rd sub⟩,
    fun h => ⟨_, s.x rs + signedImm imm, rfl, ?_⟩, fun h => ⟨_, rfl, writeOrOverflow_overflows h s rd _⟩,
    fun h => ⟨_, rfl, writeOrOverflow_overflows h s rd _⟩, fun h => ⟨_, rfl, ?_⟩⟩
  · rw [test]
    exact writeOrOverflow_fits h s rt addi
  · rw [test]
    exact writeOrOverflow_overflows h s rt _

/-- Settles O28: sign bits, signed values and wrapped sums by the unsigned values. -/
theorem overflowIsTheSignBitTest : Obligations.OverflowIsTheSignBitTest := by
  intro a b
  have ha := a.isLt
  have hb := b.isLt
  constructor
  · rw [Bool.eq_iff_iff, addOverflows, outOfSigned_iff, BitVec.toInt_eq_toNat_cond, BitVec.toInt_eq_toNat_cond]
    simp only [getLsbD_eq_decide, BitVec.toNat_add, Bool.and_eq_true, beq_iff_eq, bne_iff_ne, decide_eq_decide, ne_eq]
    split <;> split <;> omega
  · rw [Bool.eq_iff_iff, subOverflows, outOfSigned_iff, BitVec.toInt_eq_toNat_cond, BitVec.toInt_eq_toNat_cond]
    simp only [getLsbD_eq_decide, BitVec.toNat_sub, Bool.and_eq_true, bne_iff_ne, decide_eq_decide, ne_eq]
    split <;> split <;> omega

/-! ## Arithmetic modulo 2^32, logic and comparisons -/

/-- Settles O29: each is one register write of a wrapped result. -/
theorem wrappingArithmetic : Obligations.WrappingArithmetic := by
  intro s rd rt rs imm
  refine ⟨⟨_, _, rfl, writesReg_writeReg .., BitVec.toNat_add ..⟩, ⟨_, _, rfl, writesReg_writeReg .., ?_⟩,
    ⟨_, _, rfl, writesReg_writeReg .., ?_⟩⟩
  · rw [BitVec.toNat_sub, Nat.add_comm]
  · have := toNat_signedImm imm
    rw [BitVec.toNat_add]
    omega

theorem getLsbD_unsignedImm (imm : BitVec 16) (k : Nat) :
    (unsignedImm imm).getLsbD k = (decide (k < 16) && imm.getLsbD k) := by
  rw [unsignedImm, BitVec.getLsbD_setWidth]
  by_cases hk : k < 16
  · simp [hk, show k < 32 by omega]
  · simp [hk, BitVec.getLsbD_of_ge imm k (by omega)]

theorem getLsbD_upperImm (imm : BitVec 16) {k : Nat} (hk : k < 32) :
    (upperImm imm).getLsbD k = (decide (16 ≤ k) && imm.getLsbD (k - 16)) := by
  rw [upperImm, BitVec.getLsbD_shiftLeft, BitVec.getLsbD_setWidth]
  by_cases h : 16 ≤ k
  · simp [hk, h, show ¬ k < 16 by omega, show k - 16 < 32 by omega]
  · simp [h, show k < 16 by omega]

/-- Settles O30: each is one register write, whose bits are those of its operands. -/
theorem logicIsBitwise : Obligations.LogicIsBitwise := by
  intro s rd rt rs imm
  refine ⟨⟨_, _, rfl, writesReg_writeReg .., fun k _ => BitVec.getLsbD_and⟩,
    ⟨_, _, rfl, writesReg_writeReg .., fun k _ => BitVec.getLsbD_or⟩,
    ⟨_, _, rfl, writesReg_writeReg .., fun k _ => BitVec.getLsbD_xor⟩,
    ⟨_, _, rfl, writesReg_writeReg .., fun k hk => ?nor⟩, ⟨_, _, rfl, writesReg_writeReg .., fun k _ => ?andi⟩,
    ⟨_, _, rfl, writesReg_writeReg .., fun k _ => ?ori⟩, ⟨_, _, rfl, writesReg_writeReg .., fun k _ => ?xori⟩,
    ⟨_, _, rfl, writesReg_writeReg .., fun k hk => getLsbD_upperImm imm hk⟩⟩
  case nor => rw [BitVec.getLsbD_not, BitVec.getLsbD_or, decide_eq_true hk, Bool.true_and]
  case andi =>
    rw [BitVec.getLsbD_and, getLsbD_unsignedImm, Bool.and_assoc, Bool.and_left_comm]
  case ori => rw [BitVec.getLsbD_or, getLsbD_unsignedImm]
  case xori => rw [BitVec.getLsbD_xor, getLsbD_unsignedImm]

theorem boolWord_decide (p : Prop) [Decidable p] : boolWord (decide p) = if p then 1 else 0 := by
  rw [boolWord]
  by_cases h : p <;> simp [h]

/-- Settles O31: each writes 1 or 0 by its comparison, the immediate by its two readings. -/
theorem setOnLessThan : Obligations.SetOnLessThan := by
  intro s rd rt rs imm
  have unsigned : ((s.x rs).toNat < (signedImm imm).toNat) = (((s.x rs).toNat : Int) < imm.toInt % 2 ^ 32) := by
    rw [← toNat_signedImm, Int.ofNat_lt]
  refine ⟨⟨_, rfl, ?slt⟩, ⟨_, rfl, ?sltu⟩, ⟨_, rfl, ?slti⟩, ⟨_, rfl, ?sltiu⟩⟩
  case slt =>
    rw [← boolWord_decide]
    exact writesReg_writeReg ..
  case sltu =>
    rw [← boolWord_decide]
    exact writesReg_writeReg ..
  case slti =>
    rw [← boolWord_decide, ← toInt_signedImm]
    exact writesReg_writeReg ..
  case sltiu =>
    simp only [← unsigned]
    rw [← boolWord_decide]
    exact writesReg_writeReg ..

/-! ## Shifts -/

theorem toNat_shiftAmount (s : State) (rs : RegIdx) : (shiftAmount s rs).toNat = (s.x rs).toNat % 32 := by
  rw [shiftAmount, toNat_field, Nat.pow_zero, Nat.div_one]
  rfl

section
variable (a : Word) (n : Nat)

theorem toNat_shiftLeft_mod : (a <<< n).toNat = a.toNat * 2 ^ n % 2 ^ 32 := by
  rw [BitVec.toNat_shiftLeft, Nat.shiftLeft_eq]

theorem toNat_ushiftRight_div : (a >>> n).toNat = a.toNat / 2 ^ n := by
  rw [BitVec.toNat_ushiftRight, Nat.shiftRight_eq_div_pow]

theorem toInt_sshiftRight_div : (a.sshiftRight n).toInt = a.toInt / 2 ^ n := by
  rw [BitVec.toInt_sshiftRight, Int.shiftRight_eq_div_pow]
  norm_cast

end

/-- Settles O32: the three shifts of words, by an amount that is five bits of the word or of a register. -/
theorem shiftsMultiplyAndDivide : Obligations.ShiftsMultiplyAndDivide := by
  intro s rd rt rs h
  dsimp only
  rw [← toNat_shiftAmount]
  exact ⟨⟨_, _, rfl, writesReg_writeReg .., toNat_shiftLeft_mod ..⟩,
    ⟨_, _, rfl, writesReg_writeReg .., toNat_ushiftRight_div ..⟩,
    ⟨_, _, rfl, writesReg_writeReg .., toInt_sshiftRight_div ..⟩,
    ⟨_, _, rfl, writesReg_writeReg .., toNat_shiftLeft_mod ..⟩,
    ⟨_, _, rfl, writesReg_writeReg .., toNat_ushiftRight_div ..⟩,
    ⟨_, _, rfl, writesReg_writeReg .., toInt_sshiftRight_div ..⟩⟩

end Sys2Proof.Machine

/-!
PROOFS. Multiply, divide and the moves of `hi` and `lo` (spec/43_muldiv.md R240 to R248).
-/

namespace Sys2Proof.Machine

theorem writesHiLo_setHiLo (s : State) (hi lo : Word) : WritesHiLo s (s.setHiLo hi lo) hi lo := rfl

theorem product_halves (p : BitVec 64) : p.extractLsb' 32 32 ++ p.extractLsb' 0 32 = p :=
  BitVec.extractLsb'_append_extractLsb' (w := 32) (len := 32)

theorem toInt_ofInt_product (a b : Word) : (BitVec.ofInt 64 (a.toInt * b.toInt)).toInt = a.toInt * b.toInt := by
  have hlo : -(2 ^ 62) ≤ a.toInt * b.toInt := BitVec.le_toInt_mul_toInt
  have hhi : a.toInt * b.toInt ≤ 2 ^ 62 := BitVec.toInt_mul_toInt_le
  exact BitVec.toInt_ofInt_eq_self (by decide) (by omega) (by omega)

theorem toNat_ofNat_product (a b : Word) : (BitVec.ofNat 64 (a.toNat * b.toNat)).toNat = a.toNat * b.toNat := by
  rw [BitVec.toNat_ofNat]
  exact Nat.mod_eq_of_lt (Nat.lt_of_lt_of_eq (Nat.mul_lt_mul'' a.isLt b.isLt) (by decide))

/-- Settles O33: the product fits in 64 bits, and its halves are the two registers. -/
theorem multiplyGivesTheExactProduct : Obligations.MultiplyGivesTheExactProduct := by
  intro s rs rt
  refine ⟨⟨_, _, _, rfl, writesHiLo_setHiLo .., ?_⟩, ⟨_, _, _, rfl, writesHiLo_setHiLo .., ?_⟩⟩
  · rw [product_halves, toInt_ofInt_product]
  · rw [product_halves, toNat_ofNat_product]

/-- The remainder of truncated division is smaller than the divisor. -/
theorem natAbs_tmod_lt {a b : Int} (hb : b ≠ 0) : (a.tmod b).natAbs < b.natAbs := by
  rw [Int.natAbs_tmod]
  exact Nat.mod_lt _ (Int.natAbs_pos.2 hb)

/-- The one quotient of two words that does not fit is that of the least word by -1. -/
theorem tdiv_fits {n d : Word} (hd : d ≠ 0) (h : ¬(n = 0x80000000#32 ∧ d = 0xFFFFFFFF#32)) :
    -2 ^ 31 ≤ n.toInt.tdiv d.toInt ∧ n.toInt.tdiv d.toInt < 2 ^ 31 := by
  have hd0 : d.toInt ≠ 0 := fun h => hd (BitVec.eq_of_toInt_eq h)
  have hq := Int.natAbs_tdiv_le_natAbs n.toInt d.toInt
  have heq := Int.tdiv_mul_add_tmod n.toInt d.toInt
  have hr := natAbs_tmod_lt (a := n.toInt) hd0
  have hn := toInt_bounds n
  have hdb := toInt_bounds d
  have hex : ¬(n.toInt = -2 ^ 31 ∧ d.toInt = -1) := fun ⟨h1, h2⟩ =>
    h ⟨BitVec.eq_of_toInt_eq h1, BitVec.eq_of_toInt_eq h2⟩
  refine ⟨by omega, ?_⟩
  by_contra hge
  have hq31 : n.toInt.tdiv d.toInt = 2 ^ 31 := by omega
  rw [hq31] at heq
  omega

theorem tmod_fits (n : Word) {d : Word} (hd : d ≠ 0) :
    -2 ^ 31 ≤ n.toInt.tmod d.toInt ∧ n.toInt.tmod d.toInt < 2 ^ 31 := by
  have hd0 : d.toInt ≠ 0 := fun h => hd (BitVec.eq_of_toInt_eq h)
  have hr := natAbs_tmod_lt (a := n.toInt) hd0
  have hdb := toInt_bounds d
  omega

/-- Outside the two special cases, `(hi, lo)` are the remainder and the quotient. -/
theorem divSigned_spec {n d : Word} (hd : d ≠ 0) (h : ¬(n = 0x80000000#32 ∧ d = 0xFFFFFFFF#32)) :
    (divSigned n d).1.toInt = n.toInt.tmod d.toInt ∧ (divSigned n d).2.toInt = n.toInt.tdiv d.toInt := by
  rw [divSigned, if_neg hd, if_neg h]
  exact ⟨toInt_ofInt_of_fits (tmod_fits n hd), toInt_ofInt_of_fits (tdiv_fits hd h)⟩

theorem divUnsigned_spec {n d : Word} (hd : d ≠ 0) :
    (divUnsigned n d).1.toNat = n.toNat % d.toNat ∧ (divUnsigned n d).2.toNat = n.toNat / d.toNat := by
  have hn := n.isLt
  have hr := Nat.mod_le n.toNat d.toNat
  have hq := Nat.div_le_self n.toNat d.toNat
  rw [divUnsigned, if_neg hd]
  exact ⟨Nat.mod_eq_of_lt (by omega), Nat.mod_eq_of_lt (by omega)⟩

/-- Settles O34: the special cases by the model's tests, the others by truncated and unsigned division. -/
theorem divisionGivesQuotientAndRemainder : Obligations.DivisionGivesQuotientAndRemainder := by
  intro s rs rt
  refine ⟨⟨_, _, _, rfl, writesHiLo_setHiLo .., fun hd => ?_, fun hn hd => ?_, fun hd hne => ?_⟩,
    ⟨_, _, _, rfl, writesHiLo_setHiLo .., fun hd => ?_, fun hd => ?_⟩⟩
  · rw [divSigned, if_pos hd]
    exact ⟨rfl, rfl⟩
  · rw [divSigned, if_neg (by rw [hd]; decide), if_pos ⟨hn, hd⟩]
    exact ⟨rfl, rfl⟩
  · obtain ⟨hr, hq⟩ := divSigned_spec hd hne
    have hd0 : (s.x rt).toInt ≠ 0 := fun h => hd (BitVec.eq_of_toInt_eq h)
    rw [hr, hq]
    refine ⟨(Int.tdiv_mul_add_tmod _ _).symm, ?_, fun h => Int.tmod_nonneg _ h, fun h => ?_⟩
    · have := natAbs_tmod_lt (a := (s.x rs).toInt) hd0
      rw [Int.abs_eq_natAbs, Int.abs_eq_natAbs]
      exact Int.ofNat_lt.2 this
    · have := Int.tmod_nonneg (s.x rt).toInt (show 0 ≤ -(s.x rs).toInt by omega)
      rw [Int.neg_tmod] at this
      omega
  · rw [divUnsigned, if_pos hd]
    exact ⟨rfl, rfl⟩
  · obtain ⟨hr, hq⟩ := divUnsigned_spec (n := s.x rs) hd
    rw [hr, hq]
    exact ⟨(Nat.div_add_mod' _ _).symm, Nat.mod_lt _ (Nat.pos_of_ne_zero fun h => hd (BitVec.eq_of_toNat_eq h))⟩

/-- Settles O35: two register writes and two writes of one half of `(hi, lo)`. -/
theorem hiLoMoves : Obligations.HiLoMoves := fun s r =>
  ⟨⟨_, rfl, writesReg_writeReg s r s.hi⟩, ⟨_, rfl, writesReg_writeReg s r s.lo⟩,
    ⟨_, rfl, writesHiLo_setHiLo s (s.x r) s.lo⟩, ⟨_, rfl, writesHiLo_setHiLo s s.hi (s.x r)⟩⟩

end Sys2Proof.Machine

/-!
PROOFS. Branches and jumps (spec/44_branches_jumps.md R260 to R277).
-/

namespace Sys2Proof.Machine

theorem takesBranch_branchTo (s : State) (a : Word) : TakesBranch s (s.branchTo a) a := rfl

theorem writesReg_link (s : State) (r : RegIdx) : WritesReg s (s.link r) r s.nextPc := writesReg_writeReg s r s.nextPc

/-- A conditional branch whose condition holds. -/
theorem branchIf_taken {c : Bool} (h : c = true) (imm : BitVec 16) (s : State) :
    TakesBranch s (branchIf c imm s) (s.pc + BitVec.ofInt 32 (4 * imm.toInt)) := by
  rw [branchIf, if_pos h, branchTarget_eq]
  exact takesBranch_branchTo ..

/-- A conditional branch whose condition fails. -/
theorem branchIf_untaken {c : Bool} (h : c = false) (imm : BitVec 16) (s : State) : branchIf c imm s = s := by
  rw [branchIf, h]
  rfl

/-- A branch is taken or not by the truth of `p`, which its condition decides, and of `q`, which denies `p`. -/
theorem branchIf_spec {p q : Prop} {c : Bool} (hp : p → c = true) (hq : q → c = false) (imm : BitVec 16) (s : State) :
    (p → TakesBranch s (branchIf c imm s) (s.pc + BitVec.ofInt 32 (4 * imm.toInt))) ∧ (q → branchIf c imm s = s) :=
  ⟨fun h => branchIf_taken (hp h) imm s, fun h => branchIf_untaken (hq h) imm s⟩

section
variable {a : Word}

theorem isNegative_of_neg (h : a.toInt < 0) : isNegative a = true := decide_eq_true h

theorem isNegative_of_nonneg (h : 0 ≤ a.toInt) : isNegative a = false := decide_eq_false (Int.not_lt.2 h)

theorem isNonPositive_of_nonpos (h : a.toInt ≤ 0) : isNonPositive a = true := decide_eq_true h

theorem isNonPositive_of_pos (h : 0 < a.toInt) : isNonPositive a = false := decide_eq_false (Int.not_le.2 h)

theorem not_isNegative_of_nonneg (h : 0 ≤ a.toInt) : (!isNegative a) = true := by rw [isNegative_of_nonneg h]; rfl

theorem not_isNegative_of_neg (h : a.toInt < 0) : (!isNegative a) = false := by rw [isNegative_of_neg h]; rfl

theorem not_isNonPositive_of_pos (h : 0 < a.toInt) : (!isNonPositive a) = true := by
  rw [isNonPositive_of_pos h]; rfl

theorem not_isNonPositive_of_nonpos (h : a.toInt ≤ 0) : (!isNonPositive a) = false := by
  rw [isNonPositive_of_nonpos h]; rfl

end

/-- Settles O36: each is one conditional branch, by its condition. -/
theorem conditionalBranches : Obligations.ConditionalBranches := fun s _ _ _ imm =>
  ⟨⟨_, rfl, branchIf_spec beq_iff_eq.2 beq_eq_false_iff_ne.2 imm s⟩,
    ⟨_, rfl, branchIf_spec bne_iff_ne.2 bne_eq_false_iff_eq.2 imm s⟩,
    ⟨_, rfl, branchIf_spec isNonPositive_of_nonpos isNonPositive_of_pos imm s⟩,
    ⟨_, rfl, branchIf_spec not_isNonPositive_of_pos not_isNonPositive_of_nonpos imm s⟩,
    ⟨_, rfl, branchIf_spec isNegative_of_neg isNegative_of_nonneg imm s⟩,
    ⟨_, rfl, branchIf_spec not_isNegative_of_nonneg not_isNegative_of_neg imm s⟩⟩

/-- Settles O37: the link is a register write, and the branch is one from the linked state. -/
theorem linkingBranches : Obligations.LinkingBranches := fun s _ imm =>
  ⟨s.link 31, writesReg_link s 31,
    ⟨_, rfl, branchIf_spec isNegative_of_neg isNegative_of_nonneg imm (s.link 31)⟩,
    ⟨_, rfl, branchIf_spec not_isNegative_of_nonneg not_isNegative_of_neg imm (s.link 31)⟩⟩

/-- The jump target by its three fields. -/
theorem jumpTarget_eq (s : State) (target : BitVec 26) :
    jumpTarget s target = field s.pc 28 4 ++ target ++ 0#2 := by
  have mask : ∀ i < 32, (0xF0000000#32).getLsbD i = decide (28 ≤ i) := by decide
  apply BitVec.eq_of_getLsbD_eq
  intro i hi
  unfold jumpTarget
  simp only [BitVec.getLsbD_or, BitVec.getLsbD_and, BitVec.getLsbD_shiftLeft, BitVec.getLsbD_setWidth,
    BitVec.getLsbD_append, mask i hi]
  by_cases h2 : i < 2
  · simp [h2, show ¬ 28 ≤ i by omega]
  by_cases h28 : i < 28
  · simp [h2, show ¬ 28 ≤ i by omega, show i - 2 < 26 by omega, show i - 2 < 32 by omega, hi]
  · simp [h2, show 28 ≤ i by omega, show ¬ i - 2 < 26 by omega, show i - 2 - 26 < 4 by omega,
      show 28 + (i - 2 - 26) = i by omega, BitVec.getLsbD_of_ge target (i - 2) (by omega)]

/-- Settles O38: each sets `next_pc`, from the linked state where it links. -/
theorem jumpsSetTheNextPc : Obligations.JumpsSetTheNextPc := by
  intro s rd rs target
  dsimp only
  rw [← jumpTarget_eq]
  exact ⟨⟨_, rfl, takesBranch_branchTo ..⟩, ⟨s.link 31, _, rfl, writesReg_link s 31, takesBranch_branchTo ..⟩,
    ⟨_, rfl, takesBranch_branchTo ..⟩, ⟨s.link rd, _, rfl, writesReg_link s rd, takesBranch_branchTo ..⟩⟩

end Sys2Proof.Machine

/-!
PROOFS. Traps and coprocessor 0 (spec/46_traps.md R320, R321, spec/45_coprocessor.md R290 to R306,
spec/60_exceptions.md R474, R477), and which instruction writes which special register.
-/

namespace Sys2Proof.Machine

/-- Settles O20: each trap is `raise` with its exception. -/
theorem trapsEnterTheHandler : Obligations.TrapsEnterTheHandler := fun s =>
  ⟨fun _ => ⟨_, rfl, sysCall_entersException s⟩, fun _ => ⟨_, rfl, breakpoint_entersException s⟩,
    fun _ => ⟨_, rfl, copE_entersException s⟩, fun _ => ⟨_, rfl, copE_entersException s⟩,
    fun _ _ _ => ⟨_, rfl, copE_entersException s⟩, fun _ _ _ => ⟨_, rfl, copE_entersException s⟩,
    fun _ _ _ => ⟨_, rfl, copE_entersException s⟩, fun _ _ _ => ⟨_, rfl, copE_entersException s⟩,
    fun _ _ _ => ⟨_, rfl, copE_entersException s⟩, fun _ _ _ => ⟨_, rfl, copE_entersException s⟩⟩

theorem field_popMode_upper (sr : Word) : field (popMode sr) 6 26 = field sr 6 26 :=
  field_eq_iff.2 fun i hi => by rw [getLsbD_popMode _ (by omega), if_neg (by omega)]

theorem field_popMode_old (sr : Word) : field (popMode sr) 4 2 = field sr 4 2 :=
  field_eq_iff.2 fun i hi => by rw [getLsbD_popMode _ (by omega), if_neg (by omega)]

/-- The pop moves a mode pair that lies in bits 5:2 down by two bits. -/
theorem field_popMode_down (sr : Word) {lo len : Nat} (h : lo + len ≤ 4) :
    field (popMode sr) lo len = field sr (lo + 2) len :=
  field_eq_iff.2 fun i hi => by rw [getLsbD_popMode _ (by omega), if_pos (by omega), Nat.add_right_comm]

/-- Settles O21: `rfe` is the pop. -/
theorem rfePopsTheModeStack : Obligations.RfePopsTheModeStack := fun s =>
  ⟨_, rfl, rfl, field_popMode_down s.sr (by decide), field_popMode_down s.sr (by decide), field_popMode_old s.sr,
    field_popMode_upper s.sr⟩

/-- Settles O22: the entry moved the pairs up, and the pop moves them down. -/
theorem rfeUndoesExceptionEntry : Obligations.RfeUndoesExceptionEntry := by
  intro s u c d h
  refine ⟨_, rfl, ?_, (field_popMode_old u.sr).trans h.old, (field_popMode_upper u.sr).trans h.upper⟩
  have pair : ∀ w : Word, field w 0 4 = field w 2 2 ++ field w 0 2 := fun w =>
    (field_append w (lo := 0) (lo' := 2) (len := 2) (len' := 2) rfl).symm
  rw [pair, pair, restoreMode_sr, field_popMode_down u.sr (by decide), field_popMode_down u.sr (by decide), h.old,
    h.previous]

/-- Settles O23: by the readable registers. -/
theorem mfc0ReadsThroughThePendingSlot : Obligations.Mfc0ReadsThroughThePendingSlot := by
  refine fun s rt => ⟨⟨_, rfl, rfl⟩, ⟨_, rfl, rfl⟩, ⟨_, rfl, rfl⟩, fun n h12 h13 h14 => ?_⟩
  have hread : cop0Read s n = none := by
    unfold cop0Read
    split
    · exact absurd rfl h12
    · exact absurd rfl h13
    · exact absurd rfl h14
    · rfl
  show execMfc0 rt n s = _
  rw [execMfc0, hread]
  rfl

/-- The coprocessor-0 numbers without a write rule. -/
theorem cop0Write_eq_none (s : State) {n : RegIdx} (v : Word)
    (h : n ∉ ([3, 5, 6, 7, 9, 11, 12, 13] : List RegIdx)) : cop0Write s n v = none := by
  unfold cop0Write
  split
  case h_9 => rfl
  all_goals exact absurd (by decide) h

/-- Settles O24: by the written and the ignored registers. -/
theorem mtc0WritesOnlyTheStatusRegister : Obligations.Mtc0WritesOnlyTheStatusRegister := by
  refine fun s rt n => ⟨rfl, fun h => ?_, fun h => ?_⟩
  · simp only [List.mem_cons, List.not_mem_nil, or_false] at h
    rcases h with rfl | rfl | rfl | rfl | rfl | rfl | rfl <;> rfl
  · show execMtc0 rt n s = _
    rw [execMtc0, cop0Write_eq_none s _ h]
    rfl

/-! ## Who writes the special registers -/

/-- `hi`, `lo` and `sr[31:6]` are as before. -/
structure Quiet (s t : State) : Prop where
  hi : t.hi = s.hi
  lo : t.lo = s.lo
  upper : field t.sr 6 26 = field s.sr 6 26

theorem Quiet.refl (s : State) : Quiet s s := ⟨rfl, rfl, rfl⟩

theorem Quiet.raise (e : ExcKind) (s : State) : Quiet s (raise e s) :=
  ⟨rfl, rfl, (raise_entersException rfl rfl s).upper⟩

theorem Quiet.memWrite {va : Word} {n : Width} {v : Word} {s t : State} (h : memWrite va n v s = .next t) :
    Quiet s t := by
  obtain ⟨m, d, g, ms, rfl⟩ := memWrite_frame h
  exact ⟨rfl, rfl, rfl⟩

theorem Quiet.loadWith {n : Width} {ext : Word → Word} {rt rs : RegIdx} {imm : BitVec 16} {s t : State}
    (h : loadWith n ext rt rs imm s = .next t) : Quiet s t := by
  unfold Machine.loadWith at h
  dsimp only at h
  split at h
  · cases h; exact .refl s
  · split at h
    · obtain ⟨v, -, ht⟩ := andThen_eq_next.1 h
      cases ht; exact ⟨rfl, rfl, rfl⟩
    · cases h; exact .raise _ s

theorem Quiet.loadMerge {merge : Word → Word → Word → Word} {rt rs : RegIdx} {imm : BitVec 16} {s t : State}
    (h : loadMerge merge rt rs imm s = .next t) : Quiet s t := by
  unfold Machine.loadMerge at h
  dsimp only at h
  split at h
  · cases h; exact .refl s
  · obtain ⟨v, -, ht⟩ := andThen_eq_next.1 h
    cases ht; exact ⟨rfl, rfl, rfl⟩

theorem Quiet.storeWith {n : Width} {rt rs : RegIdx} {imm : BitVec 16} {s t : State}
    (h : storeWith n rt rs imm s = .next t) : Quiet s t := by
  unfold Machine.storeWith at h
  dsimp only at h
  split at h
  · cases h; exact .refl s
  · split at h
    · exact .memWrite h
    · cases h; exact .raise _ s

theorem Quiet.storeMerge {merge : Word → Word → Word → Word} {rt rs : RegIdx} {imm : BitVec 16} {s t : State}
    (h : storeMerge merge rt rs imm s = .next t) : Quiet s t := by
  unfold Machine.storeMerge at h
  dsimp only at h
  split at h
  · cases h; exact .refl s
  · obtain ⟨v, -, ht⟩ := andThen_eq_next.1 h
    exact .memWrite ht

theorem Quiet.branchIf (c : Bool) (imm : BitVec 16) (s : State) : Quiet s (branchIf c imm s) := by
  cases c <;> exact ⟨rfl, rfl, rfl⟩

theorem Quiet.branchIf_link (c : Bool) (imm : BitVec 16) (r : RegIdx) (s : State) :
    Quiet s (Machine.branchIf c imm (s.link r)) := by
  cases c <;> exact ⟨rfl, rfl, rfl⟩

theorem Quiet.writeOrOverflow (c : Bool) (r : RegIdx) (v : Word) (s : State) : Quiet s (writeOrOverflow c r v s) := by
  cases c
  · exact ⟨rfl, rfl, rfl⟩
  · exact .raise _ s

theorem Quiet.mfc0 {rt rd : RegIdx} {s t : State} (h : execMfc0 rt rd s = .next t) : Quiet s t := by
  unfold execMfc0 at h
  split at h
  · cases h; exact ⟨rfl, rfl, rfl⟩
  · simp at h

/-- `mtc0` writes no special register but the status register. -/
theorem execMtc0_hi_lo {rt rd : RegIdx} {s t : State} (h : execMtc0 rt rd s = .next t) : t.hi = s.hi ∧ t.lo = s.lo := by
  unfold execMtc0 cop0Write at h
  split at h
  · next u hu => split at hu <;> cases hu <;> cases h <;> exact ⟨rfl, rfl⟩
  · simp at h

/-- The instructions that write `hi` or `lo` (43_muldiv.md). -/
def writesHiLo : Instr → Bool
  | .mult _ _ | .multu _ _ | .div _ _ | .divu _ _ | .mthi _ | .mtlo _ => true
  | _ => false

/-- `mtc0` and the writers of `hi` and `lo` apart, an instruction leaves the special registers but for the modes. -/
theorem exec_quiet {i : Instr} {s t : State} (h : exec i s = .next t) :
    Quiet s t ∨ (∃ rt n, i = .mtc0 rt n) ∧ t.hi = s.hi ∧ t.lo = s.lo ∨ writesHiLo i = true ∧ t.sr = s.sr := by
  cases i <;> unfold exec at h
  case mtc0 rt n => exact .inr (.inl ⟨⟨rt, n, rfl⟩, execMtc0_hi_lo h⟩)
  case mult | multu | div | divu | mthi | mtlo => cases h; exact .inr (.inr ⟨rfl, rfl⟩)
  all_goals left
  case lb | lbu | lh | lhu | lw => exact .loadWith h
  case lwl | lwr => exact .loadMerge h
  case sb | sh | sw => exact .storeWith h
  case swl | swr => exact .storeMerge h
  case mfc0 => exact .mfc0 h
  case cop2 | lwc2 | swc2 => cases h
  case beq | bne | blez | bgtz | bltz | bgez => cases h; exact .branchIf _ _ s
  case bltzal | bgezal => cases h; exact .branchIf_link _ _ _ s
  case add | sub | addi => cases h; exact .writeOrOverflow _ _ _ s
  case syscall | brk | cop1 | cop3 | lwc0 | lwc1 | lwc3 | swc0 | swc1 | swc3 => cases h; exact .raise _ s
  case rfe => cases h; exact ⟨rfl, rfl, field_popMode_upper s.sr⟩
  all_goals cases h; exact ⟨rfl, rfl, rfl⟩

/-- Of the effects only exception entry writes `cause` and `epc`. -/
theorem Effect.cause_epc {s t : State} (h : Effect s t) :
    (t.cause = s.cause ∧ t.epc = s.epc) ∨ ∃ c d, EntersException c d s t := by
  cases h
  case exception e => exact .inr ⟨_, _, raise_entersException rfl rfl s⟩
  case store h =>
    obtain ⟨m, d, g, ms, rfl⟩ := memWrite_frame h
    exact .inl ⟨rfl, rfl⟩
  all_goals exact .inl ⟨rfl, rfl⟩

/-- No effect writes the input register file. -/
theorem Effect.gpr {s t : State} (h : Effect s t) : t.gpr = s.gpr := by
  cases h
  case store h =>
    obtain ⟨m, d, g, ms, rfl⟩ := memWrite_frame h
    rfl
  all_goals rfl

/-- Settles O26: `cause`, `epc` and the register file by the effects, the others by the instruction. -/
theorem whoWritesTheSpecialRegisters : Obligations.WhoWritesTheSpecialRegisters := by
  intro i s t h
  refine ⟨(exec_effect h).cause_epc, fun hmtc0 => ?_, fun hmul hmove => ?_, (exec_effect h).gpr⟩
  · rcases exec_quiet h with hq | ⟨⟨rt, n, rfl⟩, -⟩ | ⟨-, hsr⟩
    · exact hq.upper
    · exact absurd rfl (hmtc0 rt n)
    · rw [hsr]
  · rcases exec_quiet h with hq | ⟨-, hhilo⟩ | ⟨hw, -⟩
    · exact ⟨hq.hi, hq.lo⟩
    · exact hhilo
    · cases i <;> simp [writesHiLo] at hw hmul hmove

end Sys2Proof.Machine

/-!
PROOFS. Two instructions in a row: the delay slot (spec/60_exceptions.md section 2) and the load delay
(spec/70_reset_and_hazards.md section 3).
-/

namespace Sys2Proof.Machine

/-- The step of a state that runs a known instruction. -/
theorem step_of_runs {s : State} {i : Instr} (h : Runs s i) :
    step s = andThen (exec i (advance (capturePc s))) fun t => .next (commit t) := by
  obtain ⟨hs, ha, w, hw, hi⟩ := h
  rw [step_aligned hs ha, hw, andThen_next, execWord, hi]

/-- A step that runs a known instruction and answers is that instruction, committed. -/
theorem step_next_of_runs {s t : State} {i : Instr} (h : Runs s i) (hst : step s = .next t) :
    ∃ u, exec i (advance (capturePc s)) = .next u ∧ t = commit u := by
  rw [step_of_runs h] at hst
  obtain ⟨u, hu, ht⟩ := andThen_eq_next.1 hst
  cases ht
  exact ⟨u, hu, rfl⟩

/-- An effect that takes a branch moves no program counter but `next_pc`. -/
theorem Effect.pc_of_branchTaken {s t : State} (h : Effect s t) (hs : s.branchTaken = false) (ht : t.branchTaken = true) :
    t.pc = s.pc := by
  cases h
  case exception e => exact absurd (hs.symm.trans ht) (by decide)
  case store h =>
    obtain ⟨m, d, g, ms, rfl⟩ := memWrite_frame h
    rfl
  all_goals rfl

/-- Settles O10: the syscall's delay-slot flag is the first step's `branch_taken`, and a taken branch keeps `pc`. -/
theorem exceptionInADelaySlotRestartsAtTheBranch : Obligations.ExceptionInADelaySlotRestartsAtTheBranch := by
  intro s t u i code hrun hseq hst hrun' htu
  obtain ⟨a, ha, rfl⟩ := step_next_of_runs hrun hst
  obtain ⟨b, hb, rfl⟩ := step_next_of_runs hrun' htu
  cases hb
  have epc : (raise .sysCall (advance (capturePc (commit a)))).epc = if a.branchTaken then a.pc - 4 else a.pc := rfl
  have cause : (raise .sysCall (advance (capturePc (commit a)))).cause = excCause .sysCall a.branchTaken := rfl
  rw [commit_branchTaken, commit_epc, commit_cause, commit_pc, epc, cause]
  refine ⟨fun htaken => ?_, fun huntaken => ?_⟩
  · have hpc : a.pc = s.nextPc := (exec_effect ha).pc_of_branchTaken rfl htaken
    rw [htaken, hpc, hseq]
    exact ⟨by simp, by decide⟩
  · rw [huntaken]
    exact ⟨rfl, by decide⟩

/-- A load that reaches the bus and is answered. -/
theorem loadWith_next {n : Width} {ext : Word → Word} {rt rs : RegIdx} {imm : BitVec 16} {s : State} {v : Word}
    (hi : isolated s = false) (ha : aligned (effAddr s rs imm) n = true)
    (hv : memRead (effAddr s rs imm) n s = .next v) : loadWith n ext rt rs imm s = .next (s.setPending rt (ext v)) := by
  unfold loadWith
  dsimp only
  rw [if_neg (by rw [hi]; decide), if_pos ha, hv, andThen_next]

/-- The bus does not look at what the start of a step changes. -/
@[simp] theorem memRead_advance (va : Word) (n : Width) (s : State) :
    memRead va n (advance (capturePc s)) = memRead va n s := rfl

@[simp] theorem effAddr_advance (s : State) (rs : RegIdx) (imm : BitVec 16) :
    effAddr (advance (capturePc s)) rs imm = effAddr s rs imm := rfl

@[simp] theorem isolated_advance (s : State) : isolated (advance (capturePc s)) = isolated s := rfl

/-- Settles O9: the load fills the pending slot, which the next step's start applies before its instruction writes. -/
theorem loadIsNotVisibleToTheNextInstruction : Obligations.LoadIsNotVisibleToTheNextInstruction := by
  intro s t u rt rs imm rd ra rb v hinv hrun hiso hal hread hst hrun' htu
  obtain ⟨a, ha, rfl⟩ := step_next_of_runs hrun hst
  have hlw : exec (.lw rt rs imm) (advance (capturePc s)) = .next ((advance (capturePc s)).setPending rt v) :=
    loadWith_next hiso hal hread
  rw [hlw] at ha
  cases ha
  obtain ⟨b, hb, rfl⟩ := step_next_of_runs hrun' htu
  cases hb
  refine ⟨fun q hq => ?_, fun hrd => ?_, fun hrt hne => ?_⟩
  · by_cases h0 : q = 0
    · rw [h0, commit_x_zero, hinv.zero]
    · rw [commit_x_ne _ h0, State.out, State.setPending_outGpr, advance_outGpr, capturePc_outGpr, capturePc_pending,
        RegFile.get_set_ne _ _ hq, hinv.committed]
      rfl
  · rw [commit_x_ne _ hrd, State.out, State.writeReg_outGpr, RegFile.get_set_self]
    rfl
  · rw [commit_x_ne _ hrt, State.out, State.writeReg_outGpr, RegFile.get_set_ne _ _ hne]
    exact RegFile.get_set_self _ _ _

end Sys2Proof.Machine

/-!
PROOFS. Bytes of words and of memory: the wider accesses and the merges by bytes (spec/20_memory.md R78, R90,
spec/40_loads_stores.md R169, R170, R174, R175).
-/

namespace Sys2Proof.Machine

/-! ## Bytes of a word -/

theorem getElem_byteOf (v : Word) (k i : Nat) (hi : i < 8) : (byteOf v k)[i] = v.getLsbD (8 * k + i) := by
  simp [byteOf]

theorem toNat_byteOf (v : Word) (k : Nat) : (byteOf v k).toNat = v.toNat / 2 ^ (8 * k) % 2 ^ 8 := by
  rw [byteOf, BitVec.extractLsb'_toNat, Nat.shiftRight_eq_div_pow]

theorem byteOf_or (a b : Word) (k : Nat) : byteOf (a ||| b) k = byteOf a k ||| byteOf b k := by
  apply BitVec.eq_of_getElem_eq
  intro i hi
  simp [getElem_byteOf]

theorem byteOf_and (a b : Word) (k : Nat) : byteOf (a &&& b) k = byteOf a k &&& byteOf b k := by
  apply BitVec.eq_of_getElem_eq
  intro i hi
  simp [getElem_byteOf]

/-- A shift left by whole bytes. -/
theorem byteOf_shiftLeft (v : Word) {n m k : Nat} (hn : n = 8 * m) (hk : k < 4) :
    byteOf (v <<< n) k = if m ≤ k then byteOf v (k - m) else 0 := by
  apply BitVec.eq_of_getElem_eq
  intro i hi
  rw [getElem_byteOf, BitVec.getLsbD_shiftLeft]
  by_cases h : m ≤ k
  · simp [h, getElem_byteOf, show 8 * k + i < 32 by omega, show ¬ 8 * k + i < n by omega,
      show 8 * k + i - n = 8 * (k - m) + i by omega]
  · simp [h, show 8 * k + i < n by omega]

/-- A shift right by whole bytes. -/
theorem byteOf_ushiftRight (v : Word) {n m k : Nat} (hn : n = 8 * m) : byteOf (v >>> n) k = byteOf v (k + m) := by
  apply BitVec.eq_of_getElem_eq
  intro i hi
  rw [getElem_byteOf, getElem_byteOf, BitVec.getLsbD_ushiftRight, show n + (8 * k + i) = 8 * (k + m) + i by omega]

/-- A word has no byte above its fourth. -/
theorem byteOf_of_ge (v : Word) {k : Nat} (hk : 4 ≤ k) : byteOf v k = 0 := by
  apply BitVec.eq_of_getElem_eq
  intro i hi
  rw [getElem_byteOf, BitVec.getLsbD_of_ge _ _ (by omega)]
  simp

/-- Words with the same bytes are equal. -/
theorem eq_of_byteOf_eq {v w : Word} (h : ∀ k < 4, byteOf v k = byteOf w k) : v = w := by
  rw [← wordOfBytes_byteOf v, ← wordOfBytes_byteOf w, h 0 (by decide), h 1 (by decide), h 2 (by decide), h 3 (by decide)]

/-! ## The merges -/

theorem field_low_two (a : Word) : field a 0 2 = BitVec.ofNat 2 (a.toNat % 4) := by
  apply BitVec.eq_of_toNat_eq
  rw [toNat_field, BitVec.toNat_ofNat]
  omega

section
variable {cur mask w : Word} {n m j : Nat} (hn : n = 8 * m) (hj : j < 4)
include hn hj

/-- The low `m` bytes are kept, and those above are the other word's, moved up. -/
theorem byteOf_keepLow (hmask : ∀ j < 4, byteOf mask j = if m ≤ j then 0 else 0xFF#8) :
    byteOf ((cur &&& mask) ||| (w <<< n)) j = if m ≤ j then byteOf w (j - m) else byteOf cur j := by
  rw [byteOf_or, byteOf_and, hmask j hj, byteOf_shiftLeft w hn hj]
  split
  · exact (congrArg (· ||| _) BitVec.and_zero).trans BitVec.zero_or
  · exact BitVec.or_zero.trans (BitVec.and_allOnes (x := byteOf cur j))

/-- The high `m` bytes are kept, and those below are the other word's, moved down. -/
theorem byteOf_keepHigh (hmask : ∀ j < 4, byteOf mask j = if j + m < 4 then 0 else 0xFF#8) :
    byteOf ((cur &&& mask) ||| (w >>> n)) j = if j + m < 4 then byteOf w (j + m) else byteOf cur j := by
  rw [byteOf_or, byteOf_and, hmask j hj, byteOf_ushiftRight w hn]
  split
  · exact (congrArg (· ||| _) BitVec.and_zero).trans BitVec.zero_or
  · rw [byteOf_of_ge w (by omega)]
    exact BitVec.or_zero.trans (BitVec.and_allOnes (x := byteOf cur j))

end

section
variable (a cur w : Word) {j : Nat} (hj : j < 4)
include hj

/-- `lwl`: the low bytes of the word go to the top, the others are kept. -/
theorem byteOf_mergeLwl : byteOf (mergeLwl a cur w) j =
    if 3 ≤ j + a.toNat % 4 then byteOf w (j + a.toNat % 4 - 3) else byteOf cur j := by
  have hk : a.toNat % 4 < 4 := Nat.mod_lt _ (by decide)
  rw [mergeLwl, field_low_two]
  generalize a.toNat % 4 = k at hk
  rcases (by omega : k = 0 ∨ k = 1 ∨ k = 2 ∨ k = 3) with rfl | rfl | rfl | rfl
  · exact byteOf_keepLow (m := 3) rfl hj (by decide)
  · refine (byteOf_keepLow (m := 2) rfl hj (by decide)).trans ?_
    rw [show j + 1 - 3 = j - 2 by omega]
    exact if_congr (by omega) rfl rfl
  · refine (byteOf_keepLow (m := 1) rfl hj (by decide)).trans ?_
    rw [show j + 2 - 3 = j - 1 by omega]
    exact if_congr (by omega) rfl rfl
  · rw [if_pos (by omega), Nat.add_sub_cancel]
    rfl

/-- `lwr`: the high bytes of the word go to the bottom, the others are kept. -/
theorem byteOf_mergeLwr : byteOf (mergeLwr a cur w) j =
    if j + a.toNat % 4 < 4 then byteOf w (j + a.toNat % 4) else byteOf cur j := by
  have hk : a.toNat % 4 < 4 := Nat.mod_lt _ (by decide)
  rw [mergeLwr, field_low_two]
  generalize a.toNat % 4 = k at hk
  rcases (by omega : k = 0 ∨ k = 1 ∨ k = 2 ∨ k = 3) with rfl | rfl | rfl | rfl
  · rw [if_pos (by omega), Nat.add_zero]
    rfl
  · exact byteOf_keepHigh rfl hj (by decide)
  · exact byteOf_keepHigh rfl hj (by decide)
  · exact byteOf_keepHigh rfl hj (by decide)

/-- `swl`: the high bytes of the register go to the bottom, the others are kept. -/
theorem byteOf_mergeSwl : byteOf (mergeSwl a cur w) j =
    if j ≤ a.toNat % 4 then byteOf w (j + 3 - a.toNat % 4) else byteOf cur j := by
  have hk : a.toNat % 4 < 4 := Nat.mod_lt _ (by decide)
  rw [mergeSwl, field_low_two]
  generalize a.toNat % 4 = k at hk
  rcases (by omega : k = 0 ∨ k = 1 ∨ k = 2 ∨ k = 3) with rfl | rfl | rfl | rfl
  · exact (byteOf_keepHigh (m := 3) rfl hj (by decide)).trans (if_congr (by omega) rfl rfl)
  · exact (byteOf_keepHigh (m := 2) rfl hj (by decide)).trans (if_congr (by omega) rfl rfl)
  · exact (byteOf_keepHigh (m := 1) rfl hj (by decide)).trans (if_congr (by omega) rfl rfl)
  · rw [if_pos (by omega), Nat.add_sub_cancel]
    rfl

/-- `swr`: the low bytes of the register go to the top, the others are kept. -/
theorem byteOf_mergeSwr : byteOf (mergeSwr a cur w) j =
    if a.toNat % 4 ≤ j then byteOf w (j - a.toNat % 4) else byteOf cur j := by
  have hk : a.toNat % 4 < 4 := Nat.mod_lt _ (by decide)
  rw [mergeSwr, field_low_two]
  generalize a.toNat % 4 = k at hk
  rcases (by omega : k = 0 ∨ k = 1 ∨ k = 2 ∨ k = 3) with rfl | rfl | rfl | rfl
  · rw [if_pos (by omega), Nat.sub_zero]
    rfl
  · exact byteOf_keepLow rfl hj (by decide)
  · exact byteOf_keepLow rfl hj (by decide)
  · exact byteOf_keepLow rfl hj (by decide)

end

/-! ## Bytes of memory -/

theorem toNat_append_add {m n : Nat} (x : BitVec m) (y : BitVec n) : (x ++ y).toNat = x.toNat * 2 ^ n + y.toNat := by
  rw [BitVec.toNat_append, ← Nat.shiftLeft_add_eq_or_of_lt y.isLt, Nat.shiftLeft_eq]

/-- A load answers the bytes of memory, with zeros above. -/
theorem byteOf_load (m : Memory) (a : Nat) (n : Width) {k : Nat} (hk : k < 4) :
    byteOf (m.load a n) k = if k < n.bytes then m.read (a + k) else 0 := by
  have h0 := (m.read a).isLt
  have h1 := (m.read (a + 1)).isLt
  have h2 := (m.read (a + 2)).isLt
  have h3 := (m.read (a + 3)).isLt
  apply BitVec.eq_of_toNat_eq
  rw [toNat_byteOf]
  cases n <;> simp only [Memory.load, wordOfBytes, BitVec.toNat_setWidth, toNat_append_add, Width.bytes] <;>
    rcases (by omega : k = 0 ∨ k = 1 ∨ k = 2 ∨ k = 3) with rfl | rfl | rfl | rfl <;> simp <;> omega

theorem byteOf_load_word (m : Memory) (a : Nat) {k : Nat} (hk : k < 4) :
    byteOf (m.load a .word) k = m.read (a + k) :=
  (byteOf_load m a .word hk).trans (if_pos hk)

/-- A word whose bytes from the `n`-th up are those of another with zeros above is the other's remainder. -/
theorem toNat_of_low_bytes {r v : Word} {n : Width}
    (h : ∀ k < 4, byteOf r k = if k < n.bytes then byteOf v k else 0) : r.toNat = v.toNat % 256 ^ n.bytes := by
  have bytes : ∀ k < 4, r.toNat / 2 ^ (8 * k) % 256 = if k < n.bytes then v.toNat / 2 ^ (8 * k) % 256 else 0 := by
    intro k hk
    have := congrArg BitVec.toNat (h k hk)
    rw [toNat_byteOf, apply_ite BitVec.toNat, toNat_byteOf] at this
    exact this
  have h0 := bytes 0 (by decide)
  have h1 := bytes 1 (by decide)
  have h2 := bytes 2 (by decide)
  have h3 := bytes 3 (by decide)
  have hr := r.isLt
  have hv := v.isLt
  cases n <;> simp [Width.bytes] at h0 h1 h2 h3 ⊢ <;> omega

theorem toNat_load_lt (m : Memory) (a : Nat) (n : Width) : (m.load a n).toNat < 256 ^ n.bytes := by
  have h : (m.load a n).toNat = (m.load a n).toNat % 256 ^ n.bytes :=
    toNat_of_low_bytes fun k hk => by
      rw [byteOf_load m a n hk]
      split <;> rfl
  rw [h]
  exact Nat.mod_lt _ (Nat.pow_pos (by decide))

/-- A load after a store of the same width at the same address. -/
theorem toNat_load_store {m : Memory} (hm : m.wf) (a : Nat) (n : Width) (v : Word) :
    ((m.store a n v).load a n).toNat = v.toNat % 256 ^ n.bytes :=
  toNat_of_low_bytes fun k hk => by
    rw [byteOf_load _ a n hk]
    split
    · next h => rw [Memory.read_store hm, if_pos ⟨by omega, by omega⟩, Nat.add_sub_cancel_left]
    · rfl

end Sys2Proof.Machine

/-!
PROOFS. The bus by region (spec/20_memory.md R71 to R90).
-/

namespace Sys2Proof.Machine

/-! ## RAM addresses -/

theorem toNat_alignWord (a : Word) : (alignWord a).toNat = a.toNat / 4 * 4 := by
  have mask : ∀ i < 32, (0xFFFFFFFC#32).getLsbD i = decide (2 ≤ i) := by decide
  have h : alignWord a = (a >>> 2) <<< 2 := by
    apply BitVec.eq_of_getLsbD_eq
    intro i hi
    rw [alignWord, BitVec.getLsbD_and, mask i hi, BitVec.getLsbD_shiftLeft, BitVec.getLsbD_ushiftRight]
    by_cases h2 : 2 ≤ i
    · simp [h2, hi, show ¬ i < 2 by omega, show 2 + (i - 2) = i by omega]
    · simp [h2, show i < 2 by omega]
  have := a.isLt
  rw [h, toNat_shiftLeft_mod, toNat_ushiftRight_div]
  omega

/-- The segments through which RAM is seen. -/
theorem inRam_cases {va : Word} (h : InRam va) :
    va.toNat < 0x200000 ∧ (physical va).toNat = va.toNat ∨
      (0x80000000 ≤ va.toNat ∧ va.toNat < 0x80200000) ∧ (physical va).toNat = va.toNat - 0x80000000 ∨
      (0xA0000000 ≤ va.toNat ∧ va.toNat < 0xA0200000) ∧ (physical va).toNat = va.toNat - 0xA0000000 := by
  have hlt := va.isLt
  simp only [InRam, Config.ramSize] at h
  by_cases h4 : va.toNat / 2 ^ 29 = 4
  · rw [toNat_physical_kseg0 h4] at h ⊢
    omega
  by_cases h5 : va.toNat / 2 ^ 29 = 5
  · rw [toNat_physical_kseg1 h5] at h ⊢
    omega
  · rw [physical_eq_self h4 h5] at h ⊢
    omega

/-- Translation moves whole segments: it keeps the distance from an address to another in its segment. -/
theorem toNat_physical_of_segment {a b : Word} (h : a.toNat / 2 ^ 29 = b.toNat / 2 ^ 29) :
    (physical a).toNat + b.toNat = (physical b).toNat + a.toNat := by
  by_cases h4 : a.toNat / 2 ^ 29 = 4
  · rw [toNat_physical_kseg0 h4, toNat_physical_kseg0 (h ▸ h4)]
    omega
  by_cases h5 : a.toNat / 2 ^ 29 = 5
  · rw [toNat_physical_kseg1 h5, toNat_physical_kseg1 (h ▸ h5)]
    omega
  · rw [physical_eq_self h4 h5, physical_eq_self (h ▸ h4) (h ▸ h5), Nat.add_comm]

theorem toNat_physical_alignWord (a : Word) : (physical (alignWord a)).toNat = (physical a).toNat / 4 * 4 := by
  have h := toNat_alignWord a
  have hp := toNat_physical_of_segment (a := alignWord a) (b := a) (by omega)
  have hm := toNat_physical_mod_bytes a .word
  simp only [Width.bytes] at hm
  omega

theorem InRam.alignWord {a : Word} (h : InRam a) : InRam (alignWord a) := by
  rw [InRam, toNat_physical_alignWord]
  exact Nat.lt_of_le_of_lt (Nat.div_mul_le_self _ _) h

/-- The bytes just above a RAM address. -/
theorem InRam.toNat_physical_add {a : Word} (h : InRam a) {j : Nat} (hj : j < 4) :
    (physical (a + BitVec.ofNat 32 j)).toNat = (physical a).toNat + j := by
  have hadd : (a + BitVec.ofNat 32 j).toNat = a.toNat + j := by
    have := inRam_cases h
    rw [BitVec.toNat_add, BitVec.toNat_ofNat]
    omega
  have hcases := inRam_cases h
  have hp := toNat_physical_of_segment (a := a + BitVec.ofNat 32 j) (b := a) (by omega)
  omega

/-- A store that changes memory alone. -/
theorem storesTo_store {s : State} (hm : s.mem.wf) (p : Nat) (n : Width) (v : Word) :
    StoresTo s { s with mem := s.mem.store p n v } p n v := by
  refine ⟨rfl, fun k hk => ?_, fun q hq => ?_⟩
  · rw [Memory.read_store hm, if_pos ⟨by omega, by omega⟩, Nat.add_sub_cancel_left]
  · rw [Memory.read_store hm, if_neg (by omega)]

/-! ## Regions -/

section
variable {va : Word} {n : Width} {s : State}

/-- A bus access whose row is one of several regions, or none. -/
theorem regionAt_cases (p : Nat) :
    regionAt p = none ∨ ∃ row ∈ regionTable, row.start ≤ p ∧ p < row.start + row.length ∧ regionAt p = some row := by
  cases h : regionAt p with
  | none => exact .inl rfl
  | some row =>
    have hc := List.find?_some h
    simp only [RegionRow.contains, Bool.and_eq_true, decide_eq_true_eq] at hc
    exact .inr ⟨row, List.mem_of_find?_eq_some h, hc.1, hc.2, rfl⟩

/-- A load halts where every region that holds the address refuses loads. -/
theorem memRead_outOfRange (h : ∀ row ∈ regionTable, row.start ≤ (physical va).toNat →
      (physical va).toNat < row.start + row.length → row.region ∈ [Region.scratch, .memc, .ramSz, .exp2, .cachec]) :
    memRead va n s = .fault (.outOfRange s.messages) := by
  unfold memRead
  rcases regionAt_cases (physical va).toNat with hr | ⟨row, hm, h1, h2, hr⟩
  · rw [hr]
    rfl
  · rw [hr]
    have := h row hm h1 h2
    dsimp only
    generalize row.region = r at this
    simp only [List.mem_cons, List.not_mem_nil, or_false] at this
    rcases this with rfl | rfl | rfl | rfl | rfl <;> rfl

/-- A store halts where every region that holds the address refuses stores. -/
theorem memWrite_outOfRange {v : Word} (h : ∀ row ∈ regionTable, row.start ≤ (physical va).toNat →
      (physical va).toNat < row.start + row.length → row.region ∈ [Region.exp1, .scratch, .bios]) :
    memWrite va n v s = .fault (.outOfRange s.messages) := by
  unfold memWrite
  rcases regionAt_cases (physical va).toNat with hr | ⟨row, hm, h1, h2, hr⟩
  · rw [hr]
    rfl
  · rw [hr]
    have := h row hm h1 h2
    dsimp only
    generalize row.region = r at this
    simp only [List.mem_cons, List.not_mem_nil, or_false] at this
    rcases this with rfl | rfl | rfl <;> rfl

/-- What a bus load answers is no wider than the access. -/
theorem memRead_lt {v : Word} (h : memRead va n s = .next v) : v.toNat < 256 ^ n.bytes := by
  unfold memRead at h
  split at h
  · next row _ =>
    unfold regionRead at h
    cases hr : row.region <;> rw [hr] at h <;> simp only at h
    case ram | bios => cases h; exact toNat_load_lt ..
    case dma | gpu =>
      split at h
      · next hn =>
        subst hn
        exact v.isLt
      · simp at h
    case scratch | memc | ramSz | cachec | exp2 => simp at h
    all_goals cases h; cases n <;> decide
  · simp at h

end

end Sys2Proof.Machine

/-!
PROOFS. The obligations about the bus (spec/20_memory.md R73 to R89).
-/

namespace Sys2Proof.Machine

section
variable {va : Word} {n : Width} {s : State} {v : Word}

theorem memRead_bios (h1 : 0x1FC00000 ≤ (physical va).toNat) (h2 : (physical va).toNat < 0x1FC80000) :
    memRead va n s = .next (s.mem.load (physical va).toNat n) :=
  memRead_region (row := ⟨.bios, Config.biosStart, Config.biosSize⟩) (by decide) h1 h2

theorem memRead_dma_region (h1 : 0x1F801080 ≤ (physical va).toNat) (h2 : (physical va).toNat < 0x1F801100) :
    memRead va n s = if n = .word then dmaRead ((physical va).toNat - 0x1F801080) s else haltBadWidth s :=
  memRead_region (row := ⟨.dma, 0x1F801080, 0x80⟩) (by decide) h1 h2

theorem memRead_gpu_region (h1 : 0x1F801810 ≤ (physical va).toNat) (h2 : (physical va).toNat < 0x1F801818) :
    memRead va n s = if n = .word then gpuRead ((physical va).toNat - 0x1F801810) s else haltBadWidth s :=
  memRead_region (row := ⟨.gpu, 0x1F801810, 8⟩) (by decide) h1 h2

theorem memWrite_dma_region (h1 : 0x1F801080 ≤ (physical va).toNat) (h2 : (physical va).toNat < 0x1F801100) :
    memWrite va n v s = if n = .word then dmaWrite ((physical va).toNat - 0x1F801080) v s else haltBadWidth s :=
  memWrite_region (row := ⟨.dma, 0x1F801080, 0x80⟩) (by decide) h1 h2

theorem memWrite_gpu_region (h1 : 0x1F801810 ≤ (physical va).toNat) (h2 : (physical va).toNat < 0x1F801818) :
    memWrite va n v s = if n = .word then gpuWrite ((physical va).toNat - 0x1F801810) v s else haltBadWidth s :=
  memWrite_region (row := ⟨.gpu, 0x1F801810, 8⟩) (by decide) h1 h2

end

/-- Settles O49: the row that holds the address, by its range. -/
theorem busLoadsByRegion : Obligations.BusLoadsByRegion := by
  intro s va n
  dsimp only
  refine ⟨fun hp => ?memory, fun h1 h2 => ?exp1, fun hp => ?zero, fun hp => ?gp0, fun hp => ?gp1, fun h1 h2 => ?dma,
    fun hp hn => ?badWidth, fun hp => ?outOfRange⟩
  case memory =>
    have hread : memRead va n s = .next (s.mem.load (physical va).toNat n) := by
      rcases hp with hp | ⟨h1, h2⟩
      · exact memRead_ram hp
      · exact memRead_bios h1 h2
    refine ⟨_, hread, fun k hk => ?_, toNat_load_lt ..⟩
    have hk4 : k < 4 := by cases n <;> simp only [Width.bytes] at hk <;> omega
    rw [byteOf_load _ _ _ hk4, if_pos hk]
  case exp1 => exact memRead_region (row := ⟨.exp1, 0x1F000000, 0x800000⟩) (by decide) h1 (by dsimp only; omega)
  case zero =>
    rcases hp with ⟨h1, h2⟩ | ⟨h1, h2⟩ | ⟨h1, h2⟩
    · exact memRead_region (row := ⟨.irqCnt, 0x1F801070, 8⟩) (by decide) h1 h2
    · exact memRead_region (row := ⟨.timers, 0x1F801100, 0x30⟩) (by decide) h1 h2
    · exact memRead_region (row := ⟨.spu, 0x1F801C00, 640⟩) (by decide) h1 h2
  case gp0 =>
    rw [memRead_gpu_region (by omega) (by omega), hp]
    rfl
  case gp1 =>
    rw [memRead_gpu_region (by omega) (by omega), hp]
    rfl
  case dma => rw [memRead_dma_region h1 h2, if_pos rfl]
  case badWidth =>
    rcases hp with ⟨h1, h2⟩ | ⟨h1, h2⟩
    · rw [memRead_dma_region h1 h2, if_neg hn]
      rfl
    · rw [memRead_gpu_region h1 h2, if_neg hn]
      rfl
  case outOfRange =>
    refine memRead_outOfRange fun row hm => ?_
    simp only [regionTable, List.mem_cons, List.not_mem_nil, or_false] at hm
    rcases hm with rfl | rfl | rfl | rfl | rfl | rfl | rfl | rfl | rfl | rfl | rfl | rfl | rfl <;>
      dsimp only [Config.ramSize, Config.scratchStart, Config.scratchSize, Config.biosStart, Config.biosSize] <;>
      intro h1 h2 <;> simp <;> omega

/-- Settles O50: the row that holds the address, by its range. -/
theorem busStoresByRegion : Obligations.BusStoresByRegion := by
  intro s va n v
  dsimp only
  refine ⟨fun hp hm => ?ram, fun hp => ?ignored, fun hp => ?gp0, fun hp => ?gp1, fun h1 h2 => ?dma,
    fun hp hn => ?badWidth, fun hp => ?outOfRange⟩
  case ram => exact ⟨_, memWrite_ram hp, storesTo_store hm ..⟩
  case ignored =>
    rcases hp with ⟨h1, h2⟩ | ⟨h1, h2⟩ | ⟨h1, h2⟩ | ⟨h1, h2⟩ | ⟨h1, h2⟩ | ⟨h1, h2⟩ | ⟨h1, h2⟩
    · exact memWrite_region (row := ⟨.memc, 0x1F801000, 36⟩) (by decide) h1 h2
    · exact memWrite_region (row := ⟨.ramSz, 0x1F801060, 4⟩) (by decide) h1 h2
    · exact memWrite_region (row := ⟨.irqCnt, 0x1F801070, 8⟩) (by decide) h1 h2
    · exact memWrite_region (row := ⟨.timers, 0x1F801100, 0x30⟩) (by decide) h1 h2
    · exact memWrite_region (row := ⟨.spu, 0x1F801C00, 640⟩) (by decide) h1 h2
    · exact memWrite_region (row := ⟨.exp2, 0x1F802000, 66⟩) (by decide) h1 h2
    · exact memWrite_region (row := ⟨.cachec, 0xFFFE0130, 4⟩) (by decide) h1 h2
  case gp0 =>
    rw [memWrite_gpu_region (by omega) (by omega), hp]
    rfl
  case gp1 =>
    rw [memWrite_gpu_region (by omega) (by omega), hp]
    rfl
  case dma => rw [memWrite_dma_region h1 h2, if_pos rfl]
  case badWidth =>
    rcases hp with ⟨h1, h2⟩ | ⟨h1, h2⟩
    · rw [memWrite_dma_region h1 h2, if_neg hn]
      rfl
    · rw [memWrite_gpu_region h1 h2, if_neg hn]
      rfl
  case outOfRange =>
    refine memWrite_outOfRange fun row hm => ?_
    simp only [regionTable, List.mem_cons, List.not_mem_nil, or_false] at hm
    rcases hm with rfl | rfl | rfl | rfl | rfl | rfl | rfl | rfl | rfl | rfl | rfl | rfl | rfl <;>
      dsimp only [Config.ramSize, Config.scratchStart, Config.scratchSize, Config.biosStart, Config.biosSize] <;>
      intro h1 h2 <;> simp <;> omega

/-- Settles O51: in RAM the store is a memory store and the load a memory load. -/
theorem ramStoreThenLoad : Obligations.RamStoreThenLoad := by
  intro s va n v hm hva
  exact ⟨_, memWrite_ram hva, _, memRead_ram hva, toNat_load_store hm _ n v⟩

end Sys2Proof.Machine

/-!
PROOFS. Loads and stores (spec/40_loads_stores.md R160 to R177): the isolate gate, the alignment test, and each access as
its bus access.
-/

namespace Sys2Proof.Machine

section
variable {n : Width} {ext : Word → Word} {merge : Word → Word → Word → Word} {rt rs : RegIdx} {imm : BitVec 16}
  {s : State}

/-! ## The gate and the alignment test -/

theorem loadWith_isolated (hi : isolated s = true) : loadWith n ext rt rs imm s = .next s := if_pos hi

theorem loadMerge_isolated (hi : isolated s = true) : loadMerge merge rt rs imm s = .next s := if_pos hi

theorem storeWith_isolated (hi : isolated s = true) : storeWith n rt rs imm s = .next s := if_pos hi

theorem storeMerge_isolated (hi : isolated s = true) : storeMerge merge rt rs imm s = .next s := if_pos hi

section
variable (hi : isolated s = false)
include hi

theorem loadWith_misaligned (ha : (effAddr s rs imm).toNat % n.bytes ≠ 0) :
    loadWith n ext rt rs imm s = .next (raise .loadAddr s) := by
  unfold loadWith
  dsimp only
  rw [if_neg (by rw [hi]; decide), if_neg (fun h => ha ((aligned_iff _ _).1 h))]

theorem storeWith_misaligned (ha : (effAddr s rs imm).toNat % n.bytes ≠ 0) :
    storeWith n rt rs imm s = .next (raise .storeAddr s) := by
  unfold storeWith
  dsimp only
  rw [if_neg (by rw [hi]; decide), if_neg (fun h => ha ((aligned_iff _ _).1 h))]

/-! ## The accesses -/

theorem loadMerge_next {w : Word} (hw : memRead (alignWord (effAddr s rs imm)) .word s = .next w) :
    loadMerge merge rt rs imm s = .next (s.setPending rt (merge (effAddr s rs imm) (s.out rt) w)) := by
  unfold loadMerge
  dsimp only
  rw [if_neg (by rw [hi]; decide), hw, andThen_next]

theorem storeWith_eq_memWrite (ha : (effAddr s rs imm).toNat % n.bytes = 0) :
    storeWith n rt rs imm s = memWrite (effAddr s rs imm) n (s.x rt) s := by
  unfold storeWith
  dsimp only
  rw [if_neg (by rw [hi]; decide), if_pos ((aligned_iff _ _).2 ha)]

theorem storeMerge_eq_memWrite : storeMerge merge rt rs imm s =
    andThen (memRead (alignWord (effAddr s rs imm)) .word s) fun m =>
      memWrite (alignWord (effAddr s rs imm)) .word (merge (effAddr s rs imm) m (s.x rt)) s := by
  unfold storeMerge
  dsimp only
  rw [if_neg (by rw [hi]; decide)]

end

end

/-- Settles O39: each of the twelve starts with the gate. -/
theorem isolatedCacheDropsEveryAccess : Obligations.IsolatedCacheDropsEveryAccess := by
  intro s rt rs imm hi i hmem
  simp only [List.mem_cons, List.not_mem_nil, or_false] at hmem
  rcases hmem with rfl | rfl | rfl | rfl | rfl | rfl | rfl | rfl | rfl | rfl | rfl | rfl
  iterate 5 exact loadWith_isolated hi
  iterate 2 exact loadMerge_isolated hi
  iterate 3 exact storeWith_isolated hi
  iterate 2 exact storeMerge_isolated hi

/-- Settles O40: each tests its alignment before the bus. -/
theorem misalignedAccessRaises : Obligations.MisalignedAccessRaises := fun s _ _ _ hi =>
  ⟨fun ha => ⟨_, loadWith_misaligned (n := .half) hi ha, loadAddr_entersException s⟩,
    fun ha => ⟨_, loadWith_misaligned (n := .half) hi ha, loadAddr_entersException s⟩,
    fun ha => ⟨_, loadWith_misaligned (n := .word) hi ha, loadAddr_entersException s⟩,
    fun ha => ⟨_, storeWith_misaligned (n := .half) hi ha, storeAddr_entersException s⟩,
    fun ha => ⟨_, storeWith_misaligned (n := .word) hi ha, storeAddr_entersException s⟩⟩

theorem setWidth_field_of_lt {v : Word} {len : Nat} (h : v.toNat < 2 ^ len) : (field v 0 len).setWidth 32 = v := by
  apply BitVec.eq_of_toNat_eq
  rw [BitVec.toNat_setWidth, toNat_field, Nat.pow_zero, Nat.div_one, Nat.mod_eq_of_lt h, Nat.mod_eq_of_lt v.isLt]

/-- Settles O41: a load that is answered, and the width of the answer for the zero extensions. -/
theorem loadsFillThePendingSlot : Obligations.LoadsFillThePendingSlot := by
  intro s rt rs imm v hi
  dsimp only
  refine ⟨fun hv => ?lb, fun hv => ?lbu, fun ha hv => ?lh, fun ha hv => ?lhu, fun ha hv => ?lw⟩
  case lb => exact ⟨_, loadWith_next hi rfl hv, rfl⟩
  case lbu =>
    rw [setWidth_field_of_lt (memRead_lt hv)]
    exact ⟨_, loadWith_next hi rfl hv, rfl⟩
  case lh => exact ⟨_, loadWith_next hi ((aligned_iff _ _).2 ha) hv, rfl⟩
  case lhu =>
    rw [setWidth_field_of_lt (memRead_lt hv)]
    exact ⟨_, loadWith_next hi ((aligned_iff _ _).2 ha) hv, rfl⟩
  case lw => exact ⟨_, loadWith_next hi ((aligned_iff _ _).2 ha) hv, rfl⟩

/-- Settles O42: the merges by bytes. -/
theorem unalignedLoadsMergeBytes : Obligations.UnalignedLoadsMergeBytes := fun s rt rs imm w hi hw =>
  ⟨⟨_, _, loadMerge_next hi hw, rfl, fun _ hj => byteOf_mergeLwl (effAddr s rs imm) (s.out rt) w hj⟩,
    ⟨_, _, loadMerge_next hi hw, rfl, fun _ hj => byteOf_mergeLwr (effAddr s rs imm) (s.out rt) w hj⟩⟩

/-- A store of one width to RAM. -/
theorem storeWith_ram {n : Width} {rt rs : RegIdx} {imm : BitVec 16} {s : State} (hi : isolated s = false)
    (hm : s.mem.wf) (hr : InRam (effAddr s rs imm)) (ha : (effAddr s rs imm).toNat % n.bytes = 0) :
    ∃ t, storeWith n rt rs imm s = .next t ∧ StoresTo s t (physical (effAddr s rs imm)).toNat n (s.x rt) :=
  ⟨_, (storeWith_eq_memWrite hi ha).trans (memWrite_ram hr), storesTo_store hm ..⟩

/-- Settles O43: the bus store of each width, in RAM. -/
theorem storesWriteRam : Obligations.StoresWriteRam := fun _ _ _ _ hi hm hr =>
  ⟨storeWith_ram (n := .byte) hi hm hr (Nat.mod_one _), fun ha => storeWith_ram (n := .half) hi hm hr ha,
    fun ha => storeWith_ram (n := .word) hi hm hr ha⟩

/-- An unaligned-word store to RAM, by the bytes of the merged word. -/
theorem storeMerge_ram {merge : Word → Word → Word → Word} {rt rs : RegIdx} {imm : BitVec 16} {s : State}
    (hi : isolated s = false) (hm : s.mem.wf) (hr : InRam (effAddr s rs imm)) :
    ∃ t, storeMerge merge rt rs imm s = .next t ∧ t = { s with mem := t.mem } ∧ t.mem.wf ∧
      ∀ q, t.mem.read q =
        if (physical (alignWord (effAddr s rs imm))).toNat ≤ q ∧ q < (physical (alignWord (effAddr s rs imm))).toNat + 4
        then byteOf (merge (effAddr s rs imm) (s.mem.load (physical (alignWord (effAddr s rs imm))).toNat .word) (s.x rt))
          (q - (physical (alignWord (effAddr s rs imm))).toNat)
        else s.mem.read q := by
  have h : storeMerge merge rt rs imm s = _ := storeMerge_eq_memWrite hi
  rw [memRead_ram hr.alignWord, andThen_next, memWrite_ram hr.alignWord] at h
  refine ⟨_, h, rfl, ?_, fun q => ?_⟩
  · exact Memory.store_wf hm _ .word _
  · exact Memory.read_store hm _ .word _ q

section
variable {rt rs : RegIdx} {imm : BitVec 16} {s : State} (hi : isolated s = false) (hm : s.mem.wf)
  (hr : InRam (effAddr s rs imm))
include hi hm hr

/-- `swl` to RAM: from the aligned word's first byte up to the address, the high bytes of the register. -/
theorem execSwl_ram : ∃ t, execSwl rt rs imm s = .next t ∧ t = { s with mem := t.mem } ∧ t.mem.wf ∧
    ∀ q, t.mem.read q =
      if (physical (effAddr s rs imm)).toNat / 4 * 4 ≤ q ∧ q ≤ (physical (effAddr s rs imm)).toNat
      then byteOf (s.x rt) (q + 3 - (physical (effAddr s rs imm)).toNat) else s.mem.read q := by
  obtain ⟨t, ht, hframe, hwf, hread⟩ := storeMerge_ram (merge := mergeSwl) (rt := rt) hi hm hr
  refine ⟨t, ht, hframe, hwf, fun q => ?_⟩
  have hk := toNat_physical_mod_bytes (effAddr s rs imm) .word
  simp only [Width.bytes] at hk
  rw [hread, toNat_physical_alignWord]
  by_cases hq : (physical (effAddr s rs imm)).toNat / 4 * 4 ≤ q ∧ q < (physical (effAddr s rs imm)).toNat / 4 * 4 + 4
  · rw [if_pos hq, byteOf_mergeSwl _ _ _ (by omega), byteOf_load_word _ _ (by omega), ← hk, Nat.add_sub_cancel' hq.1]
    by_cases hle : q ≤ (physical (effAddr s rs imm)).toNat
    · rw [if_pos (by omega), if_pos ⟨hq.1, hle⟩]
      congr 1
      omega
    · rw [if_neg (by omega), if_neg (by omega)]
  · rw [if_neg hq, if_neg (by omega)]

/-- `swr` to RAM: from the address up to the aligned word's last byte, the low bytes of the register. -/
theorem execSwr_ram : ∃ t, execSwr rt rs imm s = .next t ∧ t = { s with mem := t.mem } ∧ t.mem.wf ∧
    ∀ q, t.mem.read q =
      if (physical (effAddr s rs imm)).toNat ≤ q ∧ q < (physical (effAddr s rs imm)).toNat / 4 * 4 + 4
      then byteOf (s.x rt) (q - (physical (effAddr s rs imm)).toNat) else s.mem.read q := by
  obtain ⟨t, ht, hframe, hwf, hread⟩ := storeMerge_ram (merge := mergeSwr) (rt := rt) hi hm hr
  refine ⟨t, ht, hframe, hwf, fun q => ?_⟩
  have hk := toNat_physical_mod_bytes (effAddr s rs imm) .word
  simp only [Width.bytes] at hk
  rw [hread, toNat_physical_alignWord]
  by_cases hq : (physical (effAddr s rs imm)).toNat / 4 * 4 ≤ q ∧ q < (physical (effAddr s rs imm)).toNat / 4 * 4 + 4
  · rw [if_pos hq, byteOf_mergeSwr _ _ _ (by omega), byteOf_load_word _ _ (by omega), ← hk, Nat.add_sub_cancel' hq.1]
    by_cases hle : (physical (effAddr s rs imm)).toNat ≤ q
    · rw [if_pos (by omega), if_pos ⟨hle, hq.2⟩]
      congr 1
      omega
    · rw [if_neg (by omega), if_neg (by omega)]
  · rw [if_neg hq, if_neg (by omega)]

end

/-- Settles O44: the aligned word's bytes by the address's place in it. -/
theorem unalignedStoresWriteRam : Obligations.UnalignedStoresWriteRam := by
  intro s rt rs imm hi hm
  dsimp only
  intro hr
  have hk := toNat_physical_mod_bytes (effAddr s rs imm) .word
  simp only [Width.bytes] at hk
  rw [toNat_physical_alignWord, ← hk]
  constructor
  · obtain ⟨t, ht, hframe, -, hread⟩ := execSwl_ram (rt := rt) hi hm hr
    refine ⟨t, ht, hframe, fun q => ?_⟩
    rw [hread]
    by_cases hq : (physical (effAddr s rs imm)).toNat / 4 * 4 ≤ q ∧ q ≤ (physical (effAddr s rs imm)).toNat
    · rw [if_pos hq, if_pos (by omega)]
      congr 1
      omega
    · rw [if_neg hq, if_neg (by omega)]
  · obtain ⟨t, ht, hframe, -, hread⟩ := execSwr_ram (rt := rt) hi hm hr
    refine ⟨t, ht, hframe, fun q => ?_⟩
    rw [hread]
    refine if_congr (by omega) ?_ rfl
    congr 1
    omega

theorem keepsCpu_of_memWrite {va : Word} {n : Width} {v : Word} {s t : State} (h : memWrite va n v s = .next t) :
    KeepsCpu s t := by
  obtain ⟨m, d, g, ms, rfl⟩ := memWrite_frame h
  rfl

theorem keepsCpu_of_storeMerge {merge : Word → Word → Word → Word} {rt rs : RegIdx} {imm : BitVec 16} {s t : State}
    (hi : isolated s = false) (h : storeMerge merge rt rs imm s = .next t) : KeepsCpu s t := by
  rw [storeMerge_eq_memWrite hi] at h
  obtain ⟨w, -, ht⟩ := andThen_eq_next.1 h
  exact keepsCpu_of_memWrite ht

/-- Settles O45: each store is its bus accesses, and the bus keeps the CPU. -/
theorem storesKeepTheCpu : Obligations.StoresKeepTheCpu := by
  intro s rt rs imm hi
  exact ⟨storeWith_eq_memWrite (n := .byte) hi (Nat.mod_one _), fun ha => storeWith_eq_memWrite (n := .half) hi ha,
    fun ha => storeWith_eq_memWrite (n := .word) hi ha, fun _ _ _ h => keepsCpu_of_memWrite h,
    ⟨fun m => mergeSwl (effAddr s rs imm) m (s.x rt), fun m _ hj => byteOf_mergeSwl _ m _ hj, storeMerge_eq_memWrite hi⟩,
    ⟨fun m => mergeSwr (effAddr s rs imm) m (s.x rt), fun m _ hj => byteOf_mergeSwr _ m _ hj, storeMerge_eq_memWrite hi⟩,
    fun _ h => keepsCpu_of_storeMerge hi h, fun _ h => keepsCpu_of_storeMerge hi h⟩

/-! ## The unaligned pair (40_loads_stores.md section 4) -/

/-- An unaligned-word load from RAM. -/
theorem loadMerge_ram {merge : Word → Word → Word → Word} {rt rs : RegIdx} {imm : BitVec 16} {s : State}
    (hi : isolated s = false) (hr : InRam (effAddr s rs imm)) :
    loadMerge merge rt rs imm s = .next (s.setPending rt (merge (effAddr s rs imm) (s.out rt)
      (s.mem.load ((physical (effAddr s rs imm)).toNat / 4 * 4) .word))) := by
  rw [← toNat_physical_alignWord]
  exact loadMerge_next hi (memRead_ram hr.alignWord)

/-- The bytes `lwl` at `a + 3` and `lwr` at `a` put together are the four from `a` up. -/
theorem byteOf_unalignedPair (m : Memory) (cur : Word) {a : Word} (hr : InRam a) {j : Nat} (hj : j < 4) :
    byteOf (mergeLwl (a + 3) (mergeLwr a cur (m.load ((physical a).toNat / 4 * 4) .word))
      (m.load ((physical (a + 3)).toNat / 4 * 4) .word)) j = m.read ((physical a).toNat + j) := by
  have h3 : (physical (a + 3)).toNat = (physical a).toNat + 3 := hr.toNat_physical_add (j := 3) (by decide)
  have hk := toNat_physical_mod_bytes a .word
  have hk' := toNat_physical_mod_bytes (a + 3) .word
  simp only [Width.bytes] at hk hk'
  rw [byteOf_mergeLwl _ _ _ hj, byteOf_mergeLwr _ _ _ hj, ← hk, ← hk', h3]
  by_cases hl : 3 ≤ j + ((physical a).toNat + 3) % 4
  · rw [if_pos hl, byteOf_load_word _ _ (by omega)]
    congr 1
    omega
  · rw [if_neg hl, if_pos (by omega), byteOf_load_word _ _ (by omega)]
    congr 1
    omega

/-- What a step that runs `lwr` in RAM leaves of what the next load looks at. -/
theorem step_lwr_ram {s t : State} {rt rs : RegIdx} {imm : BitVec 16} (hrun : Runs s (.lwr rt rs imm))
    (hi : isolated s = false) (hr : InRam (effAddr s rs imm)) (hst : step s = .next t) :
    t.sr = s.sr ∧ t.mem = s.mem ∧ ∃ cur, t.pending = ⟨rt, mergeLwr (effAddr s rs imm) cur
      (s.mem.load ((physical (effAddr s rs imm)).toNat / 4 * 4) .word)⟩ := by
  obtain ⟨a, ha, rfl⟩ := step_next_of_runs hrun hst
  have hlwr : exec (.lwr rt rs imm) (advance (capturePc s)) = _ := loadMerge_ram (merge := mergeLwr) hi hr
  rw [hlwr] at ha
  cases ha
  exact ⟨rfl, rfl, _, rfl⟩

/-- The start of a step applies the pending load, so that the merge operand is the loaded value. -/
theorem out_advance_pending {s : State} {r : RegIdx} {v : Word} (h : s.pending = ⟨r, v⟩) :
    (advance (capturePc s)).out r = v := by
  rw [State.out, advance_outGpr, capturePc_pending, h]
  exact RegFile.get_set_self _ _ _

/-- Settles O46: the second load merges into the first one's result, which its step's start has applied. -/
theorem unalignedPairLoadsTheWord : Obligations.UnalignedPairLoadsTheWord := by
  intro s t rt rs imm imm' hrun hi hst hrun' haddr hr hr'
  obtain ⟨hsr, hmem, cur, hpending⟩ := step_lwr_ram hrun hi hr hst
  have hit : isolated t = false := by rw [isolated, hsr]; exact hi
  have hrt : InRam (effAddr t rs imm') := by rw [haddr]; exact hr'
  have hlwl : exec (.lwl rt rs imm') (advance (capturePc t)) = _ := loadMerge_ram (merge := mergeLwl) hit hrt
  refine ⟨_, by rw [step_of_runs hrun', hlwl, andThen_next], rfl, fun j hj => ?_⟩
  rw [commit_pending, State.setPending_pending, out_advance_pending hpending, effAddr_advance, haddr, advance_mem,
    capturePc_mem, hmem, hr.toNat_physical_add hj]
  exact byteOf_unalignedPair s.mem cur hr hj

/-- Settles O47: the two stores write the two parts of the four bytes. -/
theorem unalignedPairStoresTheWord : Obligations.UnalignedPairStoresTheWord := by
  intro s rt rs imm imm' hi hm haddr hr hr'
  obtain ⟨t, ht, hframe, hwf, hread⟩ := execSwr_ram (rt := rt) hi hm hr
  have haddr' : effAddr t rs imm' = effAddr s rs imm + 3 := by rw [hframe]; exact haddr
  have hi' : isolated t = false := by rw [hframe]; exact hi
  have hx : t.x rt = s.x rt := by rw [hframe]; rfl
  obtain ⟨u, hu, hframe', -, hread'⟩ := execSwl_ram (rt := rt) (imm := imm') hi' hwf (haddr' ▸ hr')
  have h3 : (physical (effAddr s rs imm + 3)).toNat = (physical (effAddr s rs imm)).toNat + 3 :=
    hr.toNat_physical_add (j := 3) (by decide)
  rw [haddr', h3, hx] at hread'
  refine ⟨t, u, ht, hu, by rw [hframe', hframe], fun j hj => ?_, fun q hq => ?_⟩
  · rw [hr.toNat_physical_add hj, hread']
    by_cases hl : ((physical (effAddr s rs imm)).toNat + 3) / 4 * 4 ≤ (physical (effAddr s rs imm)).toNat + j
    · rw [if_pos (by omega)]
      congr 1
      omega
    · rw [if_neg (by omega), hread, if_pos (by omega), Nat.add_sub_cancel_left]
  · have out : ¬((physical (effAddr s rs imm)).toNat ≤ q ∧ q ≤ (physical (effAddr s rs imm)).toNat + 3) := by
      rintro ⟨h1, h2⟩
      refine hq (q - (physical (effAddr s rs imm)).toNat) (by omega) ?_
      rw [hr.toNat_physical_add (by omega)]
      omega
    rw [hread', if_neg (by omega), hread, if_neg (by omega)]

end Sys2Proof.Machine

/-!
PROOFS. The DMA registers (spec/50_dma.md R330 to R342).
-/

namespace Sys2Proof.Machine

/-! ## The register map -/

@[simp] theorem dmaRegAt_base : ∀ n : Fin 7, dmaRegAt (16 * n.val) = some (.base n) := by decide

@[simp] theorem dmaRegAt_blockControl : ∀ n : Fin 7, dmaRegAt (16 * n.val + 4) = some (.blockControl n) := by decide

@[simp] theorem dmaRegAt_control : ∀ n : Fin 7, dmaRegAt (16 * n.val + 8) = some (.control n) := by decide

theorem dmaRegAt_none : ∀ n : Fin 7, ∀ o ∈ [16 * n.val + 12, 0x78, 0x7C], dmaRegAt o = none := by decide

@[simp] theorem State.channel_setChannel (s : State) (n : Fin 7) (c : DmaChannel) : (s.setChannel n c).channel n = c :=
  Dma.channel_setChannel_self s.dma n c

@[simp] theorem State.setChannel_setChannel (s : State) (n : Fin 7) (c c' : DmaChannel) :
    (s.setChannel n c).setChannel n c' = s.setChannel n c' := by
  simp only [State.setChannel, State.setDma, Dma.setChannel_setChannel]

/-! ## Stored control words -/

/-- The mask keeps the fields a transfer looks at. -/
theorem getLsbD_and_controlMask (v : Word) {i : Nat} (h : i ∈ [0, 1, 24, 28]) :
    (v &&& controlMask).getLsbD i = v.getLsbD i := by
  have mask : ∀ i ∈ [0, 1, 24, 28], controlMask.getLsbD i = true := by decide
  rw [BitVec.getLsbD_and, mask i h, Bool.and_true]

theorem field_and_controlMask_sync (v : Word) : field (v &&& controlMask) 9 2 = field v 9 2 := by
  rw [field_and, show field controlMask 9 2 = BitVec.allOnes 2 by decide, BitVec.and_allOnes]

theorem active_stored (c : DmaChannel) (v : Word) :
    DmaChannel.active { c with control := v &&& controlMask } =
      (v.getLsbD 24 && (field v 9 2 != 0#2 || v.getLsbD 28)) := by
  unfold DmaChannel.active
  dsimp only
  rw [field_and_controlMask_sync, getLsbD_and_controlMask v (by decide), getLsbD_and_controlMask v (by decide)]

theorem syncOf_eq_none {v : Word} (h : field v 9 2 = 3#2) : syncOf v = none := by
  rw [syncOf, h]
  rfl

theorem syncOf_ne_none {v : Word} (h : field v 9 2 ≠ 3#2) : syncOf v ≠ none := by
  unfold syncOf
  split <;> simp_all

/-- A control write with a meaningful `sync` that starts nothing. -/
theorem controlWrite_idle {n : Fin 7} {v : Word} {s : State} (hs : field v 9 2 ≠ 3#2)
    (ha : ¬(v.getLsbD 24 = true ∧ (field v 9 2 ≠ 0#2 ∨ v.getLsbD 28 = true))) :
    controlWrite n v s = .next (s.setChannel n { s.channel n with control := v &&& controlMask }) := by
  have hidle : ¬ DmaChannel.active { s.channel n with control := v &&& controlMask } = true := by
    rwa [active_stored, Bool.and_eq_true, Bool.or_eq_true, bne_iff_ne]
  unfold controlWrite
  split
  · next h => exact absurd h (syncOf_ne_none hs)
  · dsimp only
    rw [State.channel_setChannel, if_neg hidle]

/-- A control write with a meaningful `sync` that starts a transfer. -/
theorem controlWrite_active {n : Fin 7} {v : Word} {s : State} (hs : field v 9 2 ≠ 3#2) (he : v.getLsbD 24 = true)
    (ht : field v 9 2 ≠ 0#2 ∨ v.getLsbD 28 = true) :
    controlWrite n v s = andThen (transfer n (s.setChannel n { s.channel n with control := v &&& controlMask }))
      fun u => .next (finishTransfer n u) := by
  have hactive : DmaChannel.active { s.channel n with control := v &&& controlMask } = true := by
    rw [active_stored, Bool.and_eq_true, Bool.or_eq_true, bne_iff_ne]
    exact ⟨he, ht⟩
  unfold controlWrite
  split
  · next h => exact absurd h (syncOf_ne_none hs)
  · dsimp only
    rw [State.channel_setChannel, if_pos hactive]

theorem setWidth_field_24 (v : Word) : (field v 0 24).setWidth 32 = v &&& 0x00FFFFFF#32 := by
  apply BitVec.eq_of_toNat_eq
  rw [BitVec.toNat_setWidth, toNat_field, BitVec.toNat_and, Nat.pow_zero, Nat.div_one]
  have h : v.toNat &&& 2 ^ 24 - 1 = v.toNat % 2 ^ 24 := Nat.and_two_pow_sub_one_eq_mod v.toNat 24
  have := v.isLt
  exact (Nat.mod_eq_of_lt (by omega)).trans h.symm

/-- Settles O52: each offset by its register, each register by its write and its read. -/
theorem dmaRegistersReadBack : Obligations.DmaRegistersReadBack := by
  intro s n v
  refine ⟨⟨s.setChannel n { s.channel n with base := field v 0 24 }, ?_, ?_, ?_⟩,
    ⟨s.setChannel n { s.channel n with blockControl := v }, ?_, ?_, rfl⟩, ⟨_, rfl, rfl, rfl⟩,
    fun hs ha => ⟨s.setChannel n { s.channel n with control := v &&& controlMask }, ?_, ?_, rfl⟩, fun hs => ?_,
    fun o ho => ?_⟩
  · rw [dmaWrite, dmaRegAt_base]
  · rw [dmaRead, dmaRegAt_base]
    dsimp only
    rw [State.channel_setChannel, setWidth_field_24]
  · rw [State.channel_setChannel]
  · rw [dmaWrite, dmaRegAt_blockControl]
  · rw [dmaRead, dmaRegAt_blockControl]
    dsimp only
    rw [State.channel_setChannel]
  · rw [dmaWrite, dmaRegAt_control]
    exact controlWrite_idle hs ha
  · rw [dmaRead, dmaRegAt_control]
    dsimp only
    rw [State.channel_setChannel]
    rfl
  · rw [dmaWrite, dmaRegAt_control]
    dsimp only
    rw [controlWrite, syncOf_eq_none hs]
    rfl
  · have hnone := dmaRegAt_none n o ho
    rw [dmaRead, dmaWrite, hnone]
    exact ⟨rfl, rfl⟩

theorem interruptRead_interruptWrite (old v : Word) : interruptRead (interruptWrite old v) = interruptWrite old v := by
  apply BitVec.eq_of_getLsbD_eq
  intro i hi
  by_cases h31 : i = 31
  · rw [h31, getLsbD_interruptRead_31, getLsbD_interruptWrite_31]
  · rw [getLsbD_interruptRead _ (by omega)]
    split
    · rw [getLsbD_interruptWrite _ _ (by omega), if_neg (by omega), if_pos (by assumption)]
    · rfl

/-- Bit 31 of a written interrupt register, by the bits it is computed from. -/
theorem interruptWrite_signal (old v : Word) : (interruptWrite old v).getLsbD 31 = true ↔ v.getLsbD 15 = true ∨
    (v.getLsbD 23 = true ∧ ∃ n, n < 7 ∧ v.getLsbD (16 + n) = true ∧ old.getLsbD (24 + n) = true ∧
      v.getLsbD (24 + n) = false) := by
  rw [getLsbD_interruptWrite_31, irqSignal_iff, getLsbD_interruptWrite _ _ (by decide),
    getLsbD_interruptWrite _ _ (by decide)]
  refine or_congr Iff.rfl (and_congr Iff.rfl (exists_congr fun n => and_congr_right fun hn => ?_))
  rw [getLsbD_interruptWrite _ _ (by omega), getLsbD_interruptWrite _ _ (by omega), if_neg (by omega),
    if_neg (by omega), if_pos (by omega), Bool.and_eq_true, Bool.not_eq_true']

theorem dmaWrite_interrupt (v : Word) (s : State) :
    dmaWrite 0x74 v s = .next (s.setDma { s.dma with interrupt := interruptWrite s.dma.interrupt v }) := rfl

theorem dmaRead_interrupt (s : State) : dmaRead 0x74 s = .next (interruptRead s.dma.interrupt) := rfl

/-- Settles O53: the stored and the read register, bit by bit. -/
theorem interruptRegisterWrite : Obligations.InterruptRegisterWrite := by
  refine ⟨fun s v => ?_, fun s => ?_⟩
  · refine ⟨_, dmaWrite_interrupt v s, rfl, ?_⟩
    rw [dmaRead_interrupt]
    dsimp only [State.setDma]
    refine ⟨fun k hk => ?_, fun k h1 h2 => ?_, fun k h1 h2 => ?_, interruptWrite_signal _ _,
      congrArg _ (interruptRead_interruptWrite _ _)⟩
    · rw [getLsbD_interruptWrite _ _ (by omega), if_neg (by omega), if_neg (by omega)]
    · rw [getLsbD_interruptWrite _ _ (by omega), if_neg (by omega), if_pos ⟨h1, h2⟩]
    · rw [getLsbD_interruptWrite _ _ h2, if_pos h1]
  · refine ⟨_, dmaRead_interrupt s, fun k hk => ?_, fun k h1 h2 => ?_, ?_⟩
    · rw [getLsbD_interruptRead _ (by omega), if_neg (by omega)]
    · rw [getLsbD_interruptRead _ (by omega), if_pos ⟨h1, h2⟩]
    · rw [getLsbD_interruptRead_31, irqSignal_iff]

end Sys2Proof.Machine

/-!
PROOFS. The DMA engines (spec/50_dma.md R343 to R349).
-/

namespace Sys2Proof.Machine

/-! ## A transfer from its start to its end -/

theorem andThen_congr {α β : Type} {o : Res α} {f g : α → Res β} (h : ∀ a, o = .next a → f a = g a) :
    andThen o f = andThen o g := by
  cases o with
  | next a => exact h a rfl
  | fault e => rfl
  | refused r => rfl

theorem andThen_assoc {α β γ : Type} (o : Res α) (f : α → Res β) (g : β → Res γ) :
    andThen (andThen o f) g = andThen o fun a => andThen (f a) g := by
  cases o <;> rfl

theorem andThen_next_right {α : Type} (o : Res α) : andThen o .next = o := by
  cases o <;> rfl

theorem gp0Exec_mem {w : Word} {s t : State} (h : gp0Exec w s = .next t) : t.mem = s.mem := by
  obtain ⟨g, ms, rfl⟩ := gp0Exec_frame h
  rfl

theorem gp0Exec_dma {w : Word} {s t : State} (h : gp0Exec w s = .next t) : t.dma = s.dma := by
  obtain ⟨g, ms, rfl⟩ := gp0Exec_frame h
  rfl

theorem gp0All_append (ws vs : List Word) (s : State) :
    gp0All (ws ++ vs) s = andThen (gp0All ws s) (gp0All vs) := by
  induction ws generalizing s with
  | nil => rfl
  | cons w ws ih =>
    rw [List.cons_append, gp0All, gp0All, andThen_assoc]
    exact andThen_congr fun t _ => ih t

theorem gp0All_frame {ws : List Word} {s t : State} (h : gp0All ws s = .next t) : t.mem = s.mem ∧ t.dma = s.dma := by
  induction ws generalizing s with
  | nil =>
    cases h
    exact ⟨rfl, rfl⟩
  | cons w ws ih =>
    obtain ⟨u, hu, ht⟩ := andThen_eq_next.1 h
    obtain ⟨hm, hd⟩ := ih ht
    exact ⟨hm.trans (gp0Exec_mem hu), hd.trans (gp0Exec_dma hu)⟩

/-- The channel a control write leaves at the end of the transfer it started. -/
theorem finishTransfer_started {n : Fin 7} {c : DmaChannel} {v : Word} {d : Dma} {u : State}
    (h : u.dma = d.setChannel n { c with control := v &&& controlMask }) :
    finishTransfer n u = u.setChannel n { c with control := v &&& 0x60770703#32 } := by
  rw [finishTransfer_eq_setChannel, State.channel, h, Dma.channel_setChannel_self, finishedControl_eq_and,
    BitVec.and_assoc, show controlMask &&& 0xEEFFFFFF#32 = 0x60770703#32 by decide]

/-! ## The block engine -/

section
variable (c : DmaChannel) (v : Word)

theorem transfer_manual {n : Fin 7} (s : State) (h : field v 9 2 = 0#2) :
    transfer n (s.setChannel n { c with control := v &&& controlMask }) =
      blockLoop n { c with control := v &&& controlMask } (c.blockControl.toNat % 0x10000) (c.base.setWidth 32)
        (s.setChannel n { c with control := v &&& controlMask }) := by
  have hsync : syncOf (v &&& controlMask) = some .manual := by rw [syncOf_and_controlMask, syncOf, h]; rfl
  have hsize : DmaChannel.transferSize { c with control := v &&& controlMask } =
      some (c.blockControl.toNat % 0x10000) := by
    rw [DmaChannel.transferSize]
    dsimp only
    rw [hsync]
    dsimp only [DmaChannel.blockSize]
    rw [toNat_field, Nat.pow_zero, Nat.div_one]
    rfl
  rw [transfer, State.channel_setChannel, hsize]

theorem transfer_request {n : Fin 7} (s : State) (h : field v 9 2 = 1#2) :
    transfer n (s.setChannel n { c with control := v &&& controlMask }) =
      blockLoop n { c with control := v &&& controlMask }
        (c.blockControl.toNat % 0x10000 * (c.blockControl.toNat / 0x10000)) (c.base.setWidth 32)
        (s.setChannel n { c with control := v &&& controlMask }) := by
  have hsync : syncOf (v &&& controlMask) = some .request := by rw [syncOf_and_controlMask, syncOf, h]; rfl
  have hcount : c.blockControl.toNat / 2 ^ 16 % 2 ^ 16 = c.blockControl.toNat / 0x10000 := by
    have := c.blockControl.isLt
    omega
  have hsize : DmaChannel.transferSize { c with control := v &&& controlMask } =
      some (c.blockControl.toNat % 0x10000 * (c.blockControl.toNat / 0x10000)) := by
    rw [DmaChannel.transferSize]
    dsimp only
    rw [hsync]
    dsimp only [DmaChannel.blockSize, DmaChannel.blockCount]
    rw [toNat_field, toNat_field, hcount, Nat.pow_zero, Nat.div_one]
    rfl
  rw [transfer, State.channel_setChannel, hsize]

theorem fromRam_started : DmaChannel.fromRam { c with control := v &&& controlMask } = v.getLsbD 0 :=
  getLsbD_and_controlMask v (by decide)

theorem decrements_started : DmaChannel.decrements { c with control := v &&& controlMask } = v.getLsbD 1 :=
  getLsbD_and_controlMask v (by decide)

end

/-- The address of the `k`-th word of a block transfer whose first word is at `a` (50_dma.md R344). -/
def blockAddr (c : DmaChannel) (a : Word) (k : Nat) : Word :=
  if c.decrements then a - BitVec.ofNat 32 (4 * k) else a + BitVec.ofNat 32 (4 * k)

theorem blockAddr_zero (c : DmaChannel) (a : Word) : blockAddr c a 0 = a := by
  unfold blockAddr
  split <;> bv_omega

theorem blockAddr_succ (c : DmaChannel) (a : Word) (k : Nat) :
    blockAddr c (if c.decrements then a - 4 else a + 4) k = blockAddr c a (k + 1) := by
  have h : BitVec.ofNat 32 (4 * (k + 1)) = BitVec.ofNat 32 (4 * k) + 4#32 := by
    rw [Nat.mul_succ, BitVec.ofNat_add]
  unfold blockAddr
  rw [h]
  split <;> bv_omega

/-- Without a port the first word halts. -/
theorem blockLoop_noPort {n : Fin 7} {c : DmaChannel} {k : Nat} (a : Word) (s : State) (hk : k ≠ 0)
    (hn : n ≠ if c.fromRam then gpuChannel else otcChannel) : blockLoop n c k a s = .fault (.unimplemented s.messages) := by
  obtain ⟨k, rfl⟩ := Nat.exists_eq_succ_of_ne_zero hk
  have hw : blockWord n c a (k + 1) s = haltUnimplemented s := by
    unfold blockWord
    split at hn <;> next hr => simp only [hr, blockFromRam, blockToRam, if_neg hn]; rfl
  rw [blockLoop, hw]
  rfl

/-- The GPU port: the words at the block's addresses, in order, into GP0. -/
theorem blockLoop_gpu {n : Fin 7} (hn : n = gpuChannel) {c : DmaChannel} (hr : c.fromRam = true) (k : Nat) (a : Word)
    (s : State) : blockLoop n c k a s = gp0All ((List.range k).map fun i => ram32 s (blockAddr c a i)) s := by
  induction k generalizing a s with
  | zero => rfl
  | succ k ih =>
    have hw : blockWord n c a (k + 1) s = gp0Exec (ram32 s a) s := by
      rw [blockWord, if_pos hr, blockFromRam, if_pos hn]
    rw [blockLoop, hw, List.range_succ_eq_map, List.map_cons, List.map_map, gp0All, blockAddr_zero]
    refine andThen_congr fun t ht => ?_
    rw [ih]
    refine congrArg (gp0All · t) (List.map_congr_left fun i _ => ?_)
    rw [ram32, gp0Exec_mem ht, blockAddr_succ]
    rfl

/-! ### The OTC port -/

/-- What the OTC port writes at `a` with `remaining` words to go (50_dma.md R347). -/
def otcWord (a : Word) (remaining : Nat) : Word :=
  if remaining = 1 then 0x00FFFFFF else (a - 4) &&& 0x001FFFFF#32

/-- Memory after the OTC port wrote `k` words from `a` on. -/
def otcFill (c : DmaChannel) : Nat → Word → Memory → Memory
  | 0, _, m => m
  | k + 1, a, m =>
    otcFill c k (if c.decrements then a - 4 else a + 4) (m.store (a &&& ramMask).toNat .word (otcWord a (k + 1)))

theorem blockLoop_otc {n : Fin 7} (hn : n = otcChannel) {c : DmaChannel} (hr : c.fromRam = false) (k : Nat) (a : Word)
    (s : State) : blockLoop n c k a s = .next { s with mem := otcFill c k a s.mem } := by
  induction k generalizing a s with
  | zero => rfl
  | succ k ih =>
    have hw : blockWord n c a (k + 1) s = .next (setRam32 s a (otcWord a (k + 1))) := by
      rw [blockWord, if_neg (by simp [hr]), blockToRam, if_pos hn]
      rfl
    rw [blockLoop, hw, andThen_next, ih]
    rfl

theorem toNat_and_ramMask (a : Word) : (a &&& ramMask).toNat = a.toNat / 4 * 4 % 0x200000 := by
  have h : a &&& ramMask = alignWord a &&& 0x1FFFFF#32 := by
    rw [alignWord, BitVec.and_assoc]
    rfl
  have hmod := Nat.and_two_pow_sub_one_eq_mod (alignWord a).toNat 21
  rw [h, BitVec.toNat_and, ← toNat_alignWord]
  exact hmod

/-- The words of a block of at most all of RAM do not overlap. -/
theorem blockAddr_disjoint (c : DmaChannel) (a : Word) {i : Nat} (hi : 0 < i) (hn : i < 0x80000) :
    (a &&& ramMask).toNat + 4 ≤ (blockAddr c a i &&& ramMask).toNat ∨
      (blockAddr c a i &&& ramMask).toNat + 4 ≤ (a &&& ramMask).toNat := by
  have ha := a.isLt
  rw [toNat_and_ramMask, toNat_and_ramMask]
  unfold blockAddr
  split
  · rw [BitVec.toNat_sub, BitVec.toNat_ofNat]
    omega
  · rw [BitVec.toNat_add, BitVec.toNat_ofNat]
    omega

section
variable (c : DmaChannel) (k : Nat) (a : Word) {m : Memory} (hm : m.wf)

include hm in
/-- The OTC port keeps the bytes outside the block. -/
theorem otcFill_read {q : Nat}
    (hq : ∀ i, i < k → q < (blockAddr c a i &&& ramMask).toNat ∨ (blockAddr c a i &&& ramMask).toNat + 4 ≤ q) :
    (otcFill c k a m).read q = m.read q := by
  induction k generalizing a m with
  | zero => rfl
  | succ k ih =>
    have h0 := hq 0 (by omega)
    rw [blockAddr_zero] at h0
    rw [otcFill, ih _ (Memory.store_wf hm _ _ _), Memory.read_store hm, if_neg (by simp only [Width.bytes]; omega)]
    intro i hi
    rw [blockAddr_succ]
    exact hq (i + 1) (by omega)

include hm in
/-- Each word of an ordering table of at most all of RAM. -/
theorem otcFill_load (hk : k ≤ 0x80000) {i : Nat} (hi : i < k) :
    (otcFill c k a m).load (blockAddr c a i &&& ramMask).toNat .word = otcWord (blockAddr c a i) (k - i) := by
  induction k generalizing a m i with
  | zero => omega
  | succ k ih =>
    have hwf := Memory.store_wf hm (a &&& ramMask).toNat .word (otcWord a (k + 1))
    rw [otcFill]
    cases i with
    | zero =>
      rw [blockAddr_zero]
      refine eq_of_byteOf_eq fun j hj => ?_
      rw [byteOf_load_word _ _ hj, otcFill_read c k _ hwf, Memory.read_store hm,
        if_pos (by simp only [Width.bytes]; omega), Nat.add_sub_cancel_left, Nat.sub_zero]
      intro i hi
      rw [blockAddr_succ]
      have := blockAddr_disjoint c a (i := i + 1) (by omega) (by omega)
      omega
    | succ i =>
      rw [← blockAddr_succ, ih _ hwf (by omega) (by omega), Nat.add_sub_add_right]

end

/-! ### A block transfer by its port -/

theorem controlWrite_block {s : State} {n : Fin 7} {v : Word} (he : v.getLsbD 24 = true)
    (hst : (field v 9 2 = 0 ∧ v.getLsbD 28 = true) ∨ field v 9 2 = 1) :
    controlWrite n v s =
      andThen (blockLoop n { s.channel n with control := v &&& controlMask }
          (if field v 9 2 = 0 then (s.channel n).blockControl.toNat % 0x10000
            else (s.channel n).blockControl.toNat % 0x10000 * ((s.channel n).blockControl.toNat / 0x10000))
          ((s.channel n).base.setWidth 32) (s.setChannel n { s.channel n with control := v &&& controlMask }))
        fun u => .next (finishTransfer n u) := by
  rcases hst with ⟨h0, ht⟩ | h1
  · rw [controlWrite_active (by rw [h0]; decide) he (.inr ht), transfer_manual _ _ _ h0, if_pos h0]
  · rw [controlWrite_active (by rw [h1]; decide) he (.inl (by rw [h1]; decide)), transfer_request _ _ _ h1,
      if_neg (by rw [h1]; decide)]

theorem blockAddr_started (c : DmaChannel) (v a : Word) (k : Nat) :
    blockAddr { c with control := v &&& controlMask } a k =
      if v.getLsbD 1 then a - BitVec.ofNat 32 (4 * k) else a + BitVec.ofNat 32 (4 * k) := by
  rw [blockAddr, decrements_started]

/-- Settles O54: the block loop of no words, without a port, of the GPU port and of the OTC port. -/
theorem blockTransfersByPort : Obligations.BlockTransfersByPort := by
  intro s n v he hst c blockSize size addr started finished
  have key : controlWrite n v s = andThen (blockLoop n { c with control := v &&& controlMask } size
      (c.base.setWidth 32) started) fun u => .next (finishTransfer n u) := controlWrite_block he hst
  have haddr : blockAddr { c with control := v &&& controlMask } (c.base.setWidth 32) = addr :=
    funext (blockAddr_started c v _)
  have hfinish : ∀ u : State, u.dma = started.dma → finishTransfer n u = finished u := fun u hu =>
    finishTransfer_started hu
  refine ⟨fun h0 => ?_, fun h0 hn => ?_, fun hr hn => ?_, fun hr hn hwf => ?_⟩
  · rw [key, h0, blockLoop, andThen_next, hfinish _ rfl]
    exact congrArg _ (State.setChannel_setChannel ..)
  · rw [key, blockLoop_noPort _ _ h0 (by rwa [fromRam_started])]
    rfl
  · rw [key, blockLoop_gpu hn ((fromRam_started c v).trans hr), haddr]
    refine andThen_congr fun u hu => ?_
    rw [hfinish u (gp0All_frame hu).2]
  · have hload : ∀ k, k < size → size ≤ 0x80000 → _ := fun k hk hs =>
      otcFill_load { c with control := v &&& controlMask } size (c.base.setWidth 32) hwf hs hk
    rw [haddr] at hload
    rw [key, blockLoop_otc hn ((fromRam_started c v).trans hr), andThen_next,
      (hfinish _ rfl : finishTransfer n { started with mem := otcFill _ _ _ _ } = _)]
    refine ⟨_, rfl, ?_, fun q hq => otcFill_read _ _ _ hwf (by rwa [haddr]), fun hs => ⟨fun k hk => ?_, fun h0 => ?_⟩⟩
    · simp only [finished, started, State.setChannel, State.setDma, Dma.setChannel_setChannel]
    · exact (hload k (by omega) hs).trans (if_neg (by omega))
    · exact (hload (size - 1) (by omega) hs).trans (if_pos (by omega))

/-! ## The linked-list engine -/

/-- A node's payload is its words, in order, into GP0. -/
theorem pushPayload_eq (cur : Word) (count i : Nat) (s : State) :
    pushPayload cur i count s =
      gp0All ((List.range count).map fun j => s.mem.load ((cur + BitVec.ofNat 32 (4 * (j + i))) &&& ramMask).toNat .word) s := by
  induction count generalizing i s with
  | zero => rfl
  | succ count ih =>
    rw [pushPayload, List.range_succ_eq_map, List.map_cons, List.map_map, gp0All, Nat.zero_add]
    refine andThen_congr fun t ht => ?_
    rw [ih, gp0Exec_mem ht]
    refine congrArg (gp0All · t) (List.map_congr_left fun j _ => ?_)
    rw [Function.comp_apply, Nat.succ_add_eq_add_succ]

/-- A list that meets a terminator within the bound is its payload words, in order, into GP0. -/
theorem listLoop_eq {m : Memory} {k fuel : Nat} {cur : Word} {ws : List Word} {s : State} (hk : k ≤ fuel)
    (hm : s.mem = m) (h : listPayload m k cur = some ws) : listLoop fuel cur s = gp0All ws s := by
  subst hm
  induction k generalizing fuel cur ws s with
  | zero => cases h
  | succ k ih =>
    obtain ⟨fuel, rfl⟩ : ∃ f, fuel = f + 1 := ⟨fuel - 1, by omega⟩
    have hnode : pushPayload cur 1 (field (ram32 s cur) 24 8).toNat s = gp0All (nodePayload s.mem cur) s :=
      pushPayload_eq cur _ 1 s
    rw [listLoop, hnode]
    simp only [listPayload] at h
    split at h
    · next hterm =>
      cases h
      exact (andThen_congr fun t _ => if_pos hterm).trans (andThen_next_right _)
    · next hterm =>
      obtain ⟨vs, hvs, rfl⟩ := Option.map_eq_some_iff.1 h
      rw [gp0All_append]
      refine andThen_congr fun t ht => ?_
      exact (if_neg hterm).trans (ih (by omega) ((gp0All_frame ht).1 ▸ hvs))

theorem transfer_list (c : DmaChannel) {v : Word} {n : Fin 7} (s : State) (h : field v 9 2 = 2#2) :
    transfer n (s.setChannel n { c with control := v &&& controlMask }) =
      listEngine n { c with control := v &&& controlMask } (s.setChannel n { c with control := v &&& controlMask }) := by
  have hsync : syncOf (v &&& controlMask) = some .linkedList := by rw [syncOf_and_controlMask, syncOf, h]; rfl
  have hsize : DmaChannel.transferSize { c with control := v &&& controlMask } = none := by
    rw [DmaChannel.transferSize]
    dsimp only
    rw [hsync]
  rw [transfer, State.channel_setChannel, hsize]

/-- Settles O55: the list engine without its port, and its loop as the words of the list. -/
theorem linkedListTransferPushesThePayload : Obligations.LinkedListTransferPushesThePayload := by
  intro s n v he h2 c
  have key : controlWrite n v s = andThen (listEngine n { c with control := v &&& controlMask }
      (s.setChannel n { c with control := v &&& controlMask })) fun u => .next (finishTransfer n u) := by
    rw [controlWrite_active (by rw [h2]; decide) he (.inl (by rw [h2]; decide)), transfer_list c s h2]
  refine ⟨fun hport => ?_, fun hn hr k ws hk hws => ?_⟩
  · have hno : ¬(n = gpuChannel ∧ DmaChannel.fromRam { c with control := v &&& controlMask } = true) := by
      rw [fromRam_started]
      rintro ⟨hn, hr⟩
      exact hport.elim (· hn) fun hr' => Bool.false_ne_true (hr'.symm.trans hr)
    rw [key, listEngine, if_neg hno]
    rfl
  · rw [key, listEngine, if_pos ⟨hn, (fromRam_started c v).trans hr⟩]
    dsimp only
    rw [listLoop_eq hk (s := s.setChannel n { c with control := v &&& controlMask }) rfl hws]
    refine andThen_congr fun u hu => ?_
    rw [finishTransfer_started (gp0All_frame hu).2]

end Sys2Proof.Machine

/-!
PROOFS. The reset state and power-on (spec/10_state.md section 5, spec/52_host.md section 1).
-/

namespace Sys2Proof.Machine

/-! ## The invariant at reset -/

theorem nextPc_reset : State.reset.nextPc = 0xBFC00004#32 := by decide

theorem gpuInv_reset : GpuInv Gpu.reset := gpuInv_gp1Reset Gpu.reset

theorem Dma.channel_reset : ∀ n, Dma.reset.channel n = ⟨0, 0, 0⟩ := by decide

theorem dmaInv_reset : DmaInv Dma.reset where
  normalized n := by rw [Dma.channel_reset]; rfl
  meaningful n := by rw [Dma.channel_reset]; decide
  idle n := by rw [Dma.channel_reset]; decide
  reserved := by decide
  noFlags := by decide
  signal := by decide

/-- The reset state with other registers and memory is in the invariant as far as they are. -/
theorem State.inv_of_reset {s : State} (hr : RegsInv s) (hm : MemInv s) (hd : s.dma = Dma.reset) (hg : s.gpu = Gpu.reset)
    (hc : s.cause = 0) : s.Inv where
  regs := hr
  mem := hm
  dma := hd ▸ dmaInv_reset
  gpu := hg ▸ gpuInv_reset
  cause := by rw [hc]; decide

/-- Settles O11: the invariant at reset, and the values of the definition. -/
theorem resetMeetsTheInvariant : Obligations.ResetMeetsTheInvariant := by
  refine ⟨State.inv_of_reset ⟨rfl, by decide⟩ ⟨⟨.nil, nofun⟩, nofun⟩ rfl rfl rfl, rfl, nextPc_reset, rfl, rfl, rfl, rfl, rfl,
    rfl, rfl, rfl, Dma.channel_reset, ?_⟩
  and_intros <;> rfl

/-! ## Memory at power-on -/

section
variable (p : ResetParams)

theorem powerOnMemory_bios_address {c : Host.Cell} (h : c ∈ cellsFrom Config.biosStart p.bios) : 0x1FC00000 ≤ c.1 :=
  (mem_cellsFrom h).1

theorem powerOnMemory_scratch_address {c : Host.Cell} (h : c ∈ p.scratch.within Config.scratchStart Config.scratchSize) :
    0x1F800000 ≤ c.1 ∧ c.1 < 0x1F800400 :=
  (Memory.mem_within h).2

theorem powerOnMemory_ram_address {c : Host.Cell} (h : c ∈ p.ram.within 0 Config.ramSize) : c.1 < 0x200000 := by
  simpa using (Memory.mem_within h).2.2

theorem powerOnMemory_read_bios {i : Nat} (hi : i < p.bios.length) :
    (powerOnMemory p).read (Config.biosStart + i) = p.bios.getD i Config.unlistedByte := by
  rw [powerOnMemory, Memory.read_append, Memory.read_append, read_cellsFrom hi]
  · intro c hc
    have := powerOnMemory_scratch_address p hc
    simp only [Config.biosStart]
    omega
  · intro c hc
    have := powerOnMemory_ram_address p hc
    simp only [Config.biosStart]
    omega

theorem powerOnMemory_read_ram {a : Nat} (ha : a < 0x200000) : (powerOnMemory p).read a = p.ram.read a := by
  rw [powerOnMemory, Memory.read_append_left, Memory.read_within (Nat.zero_le a) (by rwa [Nat.zero_add])]
  intro c hc
  rcases List.mem_append.1 hc with hc | hc
  · have := powerOnMemory_scratch_address p hc
    omega
  · have := powerOnMemory_bios_address p hc
    omega

theorem powerOnMemory_read_scratch {a : Nat} (h : 0x1F800000 ≤ a) (h' : a < 0x1F800400) :
    (powerOnMemory p).read a = p.scratch.read a := by
  rw [powerOnMemory, Memory.read_append, Memory.read_append_left, Memory.read_within h h']
  · intro c hc
    have := powerOnMemory_bios_address p hc
    omega
  · intro c hc
    have := powerOnMemory_ram_address p hc
    omega

end

/-- Settles O19: the image's length decides, and the state is the reset state with the open parameters filled in. -/
theorem powerOnNeedsAFullBiosImage : Obligations.PowerOnNeedsAFullBiosImage := by
  intro p
  refine ⟨fun h => if_neg h, fun h => ⟨resetWith p, if_pos h, rfl, nextPc_reset, rfl, rfl, rfl, rfl, rfl, rfl, rfl, rfl, rfl,
    rfl, fun i hi => powerOnMemory_read_bios p (by rwa [h]), fun a ha => powerOnMemory_read_ram p ha,
    fun a ha ha' => powerOnMemory_read_scratch p ha ha', RegFile.get_set_self p.gpr 0 0,
    fun r hr => RegFile.get_set_ne p.gpr 0 hr, fun r => rfl, rfl, rfl, fun hr hs => ?_⟩⟩
  exact State.inv_of_reset ⟨rfl, RegFile.get_set_self p.gpr 0 0⟩ ⟨powerOnMemory_wf hr hs, powerOnMemory_in_arrays h⟩ rfl
    rfl rfl

end Sys2Proof.Machine

/-!
PROOFS. The GP0 parser and its commands (spec/51_gpu.md section 2).
-/

namespace Sys2Proof.Machine

/-! ## One word at the parser -/

section
variable {s : State} (w : Word)

theorem gp0Exec_imageLoad (hm : s.gpu.mode = .imageLoad) : gp0Exec w s = .next (s.setGpu (gp0Swallow s.gpu)) := by
  rw [gp0Exec, hm]

theorem gp0Exec_inFlight (hm : s.gpu.mode = .command) (ha : s.gpu.argRemaining ≠ 0) : gp0Exec w s = gp0Push w s := by
  rw [gp0Exec, hm]
  exact if_neg ha

theorem gp0Exec_unlisted (hm : s.gpu.mode = .command) (ha : s.gpu.argRemaining = 0)
    (hc : gp0Lookup (field w 24 8) = none) : gp0Exec w s = .fault (.unknownGpuOpcode s.messages) := by
  rw [gp0Exec, hm]
  dsimp only
  rw [if_pos ha, hc]
  rfl

/-- A header starts its command and is the first of its words. -/
theorem gp0Exec_header {c : Gp0Cmd} (hm : s.gpu.mode = .command) (ha : s.gpu.argRemaining = 0)
    (hc : gp0Lookup (field w 24 8) = some c) :
    gp0Exec w s = gp0Push w (s.setGpu { s.gpu with opcode := field w 24 8, buf := [], argRemaining := c.argc }) := by
  rw [gp0Exec, hm]
  dsimp only
  rw [if_pos ha, hc]

/-- A word that is not its command's last. -/
theorem gp0Push_more (ha : s.gpu.argRemaining - 1 ≠ 0) :
    gp0Push w s = .next (s.setGpu { s.gpu with buf := s.gpu.buf ++ [w], argRemaining := s.gpu.argRemaining - 1 }) :=
  if_neg ha

/-- The last word of a command runs it. -/
theorem gp0Push_last {c : Gp0Cmd} (hc : gp0Lookup s.gpu.opcode = some c) (ha : s.gpu.argRemaining = 1) :
    gp0Push w s = c.run (s.setGpu { s.gpu with buf := s.gpu.buf ++ [w], argRemaining := 0 }) := by
  have h0 : s.gpu.argRemaining - 1 = 0 := by rw [ha]; decide
  refine (if_pos h0).trans ?_
  dsimp only [State.setGpu]
  rw [hc, h0]

end

/-! ## The words of a command -/

theorem gp0All_singleton (w : Word) (s : State) : gp0All [w] s = gp0Exec w s := andThen_next_right _

/-- The words that complete the command in flight run it. -/
theorem gp0All_inFlight {c : Gp0Cmd} (ws : List Word) {s : State} (hm : s.gpu.mode = .command)
    (hc : gp0Lookup s.gpu.opcode = some c) (hne : ws ≠ []) (hlt : ws.length < 2 ^ 32)
    (ha : s.gpu.argRemaining = BitVec.ofNat 32 ws.length) :
    gp0All ws s = c.run (s.setGpu { s.gpu with buf := s.gpu.buf ++ ws, argRemaining := 0 }) := by
  induction ws generalizing s with
  | nil => exact absurd rfl hne
  | cons w ws ih =>
    rw [List.length_cons] at hlt ha
    have hpos : s.gpu.argRemaining ≠ 0 := by
      rw [ha]
      bv_omega
    rw [gp0All, gp0Exec_inFlight w hm hpos]
    cases ws with
    | nil =>
      rw [gp0Push_last w hc ha]
      exact andThen_next_right _
    | cons v ws =>
      have hleft : s.gpu.argRemaining - 1 = BitVec.ofNat 32 (v :: ws).length := by
        rw [ha]
        bv_omega
      have hmore : s.gpu.argRemaining - 1 ≠ 0 := by
        rw [hleft, List.length_cons]
        rw [List.length_cons] at hlt
        bv_omega
      rw [gp0Push_more w hmore, andThen_next, ih (by exact hm) (by exact hc) (List.cons_ne_nil _ _) (by omega) hleft,
        List.append_cons s.gpu.buf w (v :: ws)]
      rfl

/-- A header and the words its command takes run the command on the assembled buffer. -/
theorem gp0All_command {c : Gp0Cmd} {w : Word} {ws : List Word} {s : State} (hm : s.gpu.mode = .command)
    (ha : s.gpu.argRemaining = 0) (hc : gp0Lookup (field w 24 8) = some c)
    (hlen : (w :: ws).length = c.argc.toNat) :
    gp0All (w :: ws) s =
      c.run (s.setGpu { s.gpu with buf := w :: ws, opcode := field w 24 8, argRemaining := 0 }) := by
  have hstart : gp0All (w :: ws) s =
      gp0All (w :: ws) (s.setGpu { s.gpu with opcode := field w 24 8, buf := [], argRemaining := c.argc }) := by
    rw [gp0All, gp0All, gp0Exec_header w hm ha hc]
    exact congrArg (andThen · _) (gp0Exec_inFlight w 
      (s := s.setGpu { s.gpu with opcode := field w 24 8, buf := [], argRemaining := c.argc }) hm c.argc_ne_zero).symm
  rw [hstart, gp0All_inFlight _ (by exact hm) (by exact hc) (List.cons_ne_nil _ _) (hlen ▸ c.argc.isLt)
    (by rw [hlen, BitVec.ofNat_toNat]; exact (BitVec.setWidth_eq c.argc).symm)]
  rfl

/-! ## Drawing -/

theorem texturedVertex_eq (p : Word) : texturedVertex p = vertex p 0x80 := rfl

/-- Settles O56: the fields of a vertex, and each command on its assembled words. -/
theorem drawingCommandsEmitTheirMessage : Obligations.DrawingCommandsEmitTheirMessage := by
  refine ⟨fun p c => ⟨BitVec.toInt_signExtend_of_le (by decide), BitVec.toInt_signExtend_of_le (by decide),
    BitVec.toNat_setWidth_of_le (by decide), BitVec.toNat_setWidth_of_le (by decide),
    BitVec.toNat_setWidth_of_le (by decide)⟩, ?_⟩
  intro s w0 w1 w2 w3 w4 w5 w6 w7 w8 hm ha op after
  refine ⟨fun h => ?_, fun h => ?_, fun h => ?_, fun h => ?_, fun h => ?_⟩
  · exact gp0All_command (c := .monoQuad) hm ha (congrArg gp0Lookup h) rfl
  · rw [← texturedVertex_eq, ← texturedVertex_eq, ← texturedVertex_eq, ← texturedVertex_eq]
    exact gp0All_command (c := .texturedQuad) hm ha (congrArg gp0Lookup h) rfl
  · exact gp0All_command (c := .shadedTriangle) hm ha (congrArg gp0Lookup h) rfl
  · exact gp0All_command (c := .shadedQuad) hm ha (congrArg gp0Lookup h) rfl
  · refine ⟨_, _, (gp0All_command (c := .drawOffset) hm ha (congrArg gp0Lookup h) rfl).trans
      (congrArg Host.Outcome.next ?_), BitVec.toInt_signExtend_of_le (by decide),
      BitVec.toInt_signExtend_of_le (by decide)⟩
    simp only [gp0DrawOffset, State.emit, List.append_assoc]
    rfl

/-! ## Draw state -/

theorem getLsbD_gp0DrawMode_low (v : Word) (g : Gpu) {i : Nat} (hi : i < 11) :
    (gp0DrawMode v g).status.getLsbD i = v.getLsbD i := by
  rw [gp0DrawMode, getLsbD_setBit, if_neg (by omega), getLsbD_setField, if_pos (by omega), getLsbD_field]
  simp [hi, show i < 32 by omega]

theorem getLsbD_gp0DrawMode_15 (v : Word) (g : Gpu) : (gp0DrawMode v g).status.getLsbD 15 = v.getLsbD 11 := by
  rw [gp0DrawMode, getLsbD_setBit, if_pos rfl, decide_eq_true (by decide), Bool.true_and]

theorem getLsbD_gp0MaskBits_11 (v : Word) (g : Gpu) : (gp0MaskBits v g).status.getLsbD 11 = v.getLsbD 0 := by
  rw [gp0MaskBits, getLsbD_setBit, if_neg (by decide), getLsbD_setBit, if_pos rfl, decide_eq_true (by decide),
    Bool.true_and]

theorem getLsbD_gp0MaskBits_12 (v : Word) (g : Gpu) : (gp0MaskBits v g).status.getLsbD 12 = v.getLsbD 1 := by
  rw [gp0MaskBits, getLsbD_setBit, if_pos rfl, decide_eq_true (by decide), Bool.true_and]

/-- Settles O57: each command on its one word, and the image store on its three. -/
theorem drawStateCommandsWriteTheirFields : Obligations.DrawStateCommandsWriteTheirFields := by
  intro s w w1 w2 hm ha op after
  have run : ∀ {c : Gp0Cmd}, gp0Lookup op = some c → c.argc = 1 →
      gp0Exec w s = c.run (s.setGpu { s.gpu with buf := [w], opcode := op, argRemaining := 0 }) := fun hc hlen => by
    rw [← gp0All_singleton]
    exact gp0All_command hm ha hc (by rw [hlen]; rfl)
  refine ⟨fun h => ?_, fun h => ?_, fun h => ?_, fun h => ?_, fun h => ?_, fun h => ?_, fun h => ?_⟩
  · refine ⟨_, (gp0DrawMode w s.gpu).status, run (c := .drawMode) (congrArg gp0Lookup h) rfl, rfl,
      field_eq_iff.2 fun i hi => ?_, getLsbD_gp0DrawMode_15 w s.gpu, field_eq_iff.2 fun i hi => ?_,
      field_eq_iff.2 fun i hi => ?_⟩
    · exact getLsbD_gp0DrawMode_low w s.gpu (by omega)
    · exact getLsbD_gp0DrawMode w s.gpu (by omega) (by omega)
    · exact getLsbD_gp0DrawMode w s.gpu (by omega) (by omega)
  · exact ⟨_, run (c := .textureWindow) (congrArg gp0Lookup h) rfl, rfl⟩
  · exact ⟨_, run (c := .areaTopLeft) (congrArg gp0Lookup h) rfl, rfl⟩
  · exact ⟨_, run (c := .areaBottomRight) (congrArg gp0Lookup h) rfl, rfl⟩
  · refine ⟨_, (gp0MaskBits w s.gpu).status, run (c := .maskBits) (congrArg gp0Lookup h) rfl, rfl,
      getLsbD_gp0MaskBits_11 w s.gpu, getLsbD_gp0MaskBits_12 w s.gpu, field_eq_iff.2 fun i hi => ?_,
      field_eq_iff.2 fun i hi => ?_⟩
    · exact getLsbD_gp0MaskBits w s.gpu (by omega) (by omega)
    · exact getLsbD_gp0MaskBits w s.gpu (by omega) (by omega)
  · rcases h with h | h
    · exact ⟨_, run (c := .nop) (congrArg gp0Lookup h) rfl, rfl⟩
    · exact ⟨_, run (c := .clearCache) (congrArg gp0Lookup h) rfl, rfl⟩
  · exact gp0All_command (c := .imageStore) hm ha (congrArg gp0Lookup h) rfl

/-! ## Image loads -/

/-- The words an image load waits for are swallowed, whatever they are. -/
theorem gp0All_imageLoad (ws : List Word) {s : State} (hm : s.gpu.mode = .imageLoad) (hne : ws ≠ [])
    (hlt : ws.length < 2 ^ 32) (ha : s.gpu.argRemaining = BitVec.ofNat 32 ws.length) :
    gp0All ws s = .next (s.setGpu { s.gpu with argRemaining := 0, mode := .command }) := by
  induction ws generalizing s with
  | nil => exact absurd rfl hne
  | cons w ws ih =>
    rw [List.length_cons] at hlt ha
    have hleft : s.gpu.argRemaining - 1 = BitVec.ofNat 32 ws.length := by
      rw [ha]
      bv_omega
    rw [gp0All, gp0Exec_imageLoad w hm, andThen_next, gp0Swallow]
    dsimp only
    rw [hleft]
    cases ws with
    | nil => rfl
    | cons v ws =>
      have hmore : BitVec.ofNat 32 (v :: ws).length ≠ 0 := by
        rw [List.length_cons] at hlt ⊢
        bv_omega
      rw [if_neg hmore]
      exact ih rfl (List.cons_ne_nil _ _) (by omega) rfl

theorem imageWords_eq (size : Word) :
    imageWords size = ((size.toNat % 2 ^ 16) * (size.toNat / 2 ^ 16) + 1) / 2 := by
  have hh : size.toNat / 2 ^ 16 % 2 ^ 16 = size.toNat / 2 ^ 16 := by
    have := size.isLt
    omega
  rw [imageWords, toNat_field, toNat_field, hh, Nat.pow_zero, Nat.div_one]

/-- Settles O58: the three words of the command, then the words it waits for. -/
theorem imageLoadSwallowsItsWords : Obligations.ImageLoadSwallowsItsWords := by
  intro s header dest size pixels hm ha h words
  have hwords : imageWords size = words := imageWords_eq size
  have hrun : gp0All [header, dest, size] s = gp0ImageLoad
      (s.setGpu { s.gpu with buf := [header, dest, size], opcode := field header 24 8, argRemaining := 0 }) :=
    gp0All_command (c := .imageLoad) hm ha (congrArg gp0Lookup h) rfl
  refine ⟨fun h0 => hrun.trans (if_pos (hwords.trans h0)), fun h0 hlen => ?_⟩
  have hload : gp0All [header, dest, size] s = .next (s.setGpu
      { s.gpu with
        buf := [header, dest, size]
        opcode := field header 24 8
        argRemaining := BitVec.ofNat 32 pixels.length
        mode := .imageLoad }) := by
    rw [hrun, hlen, ← hwords]
    exact if_neg (hwords ▸ h0)
  have hne : pixels ≠ [] := List.length_pos_iff.1 (by omega)
  have hlt : pixels.length < 2 ^ 32 := by
    rw [hlen, ← hwords]
    exact imageWords_lt size
  have hall := gp0All_append [header, dest, size] pixels s
  rw [hload, andThen_next, gp0All_imageLoad pixels rfl hne hlt rfl] at hall
  exact ⟨_, hall, rfl⟩

/-! ## Opcodes without a row -/

/-- The opcodes of the table (51_gpu.md R389). -/
theorem gp0Lookup_isSome : ∀ op : BitVec 8, (gp0Lookup op).isSome =
    decide (op ∈ ([0x00, 0x01, 0x28, 0x2C, 0x30, 0x38, 0xA0, 0xC0, 0xE1, 0xE2, 0xE3, 0xE4, 0xE5, 0xE6] : List (BitVec 8))) := by
  decide

/-- Only an image load can stop. -/
theorem Gp0Cmd.run_next {c : Gp0Cmd} (h : c ≠ .imageLoad) (s : State) : ∃ t, c.run s = .next t := by
  cases c
  case imageLoad => exact absurd rfl h
  all_goals exact ⟨_, rfl⟩

theorem Gp0Cmd.run_ne_unknownGpuOpcode (c : Gp0Cmd) (s : State) (e : List Message) :
    c.run s ≠ .fault (.unknownGpuOpcode e) := by
  by_cases h : c = .imageLoad
  · subst h
    rw [Gp0Cmd.run, gp0ImageLoad]
    dsimp only
    split <;> nofun
  · obtain ⟨t, ht⟩ := run_next h s
    rw [ht]
    nofun

theorem gp0Push_ne_unknownGpuOpcode (w : Word) (s : State) (e : List Message) :
    gp0Push w s ≠ .fault (.unknownGpuOpcode e) := by
  rw [gp0Push]
  dsimp only
  split
  · split
    · exact Gp0Cmd.run_ne_unknownGpuOpcode _ _ e
    · nofun
  · nofun

/-- Settles O60: by the rows of the table, and by the mode of the parser. -/
theorem unknownGpuOpcodesHalt : Obligations.UnknownGpuOpcodesHalt := by
  intro s w rows
  have hrows : (gp0Lookup (field w 24 8)).isSome = decide (field w 24 8 ∈ rows) := gp0Lookup_isSome _
  refine ⟨fun hm ha => ⟨fun hw => ?_, fun hw => ?_⟩, fun hbusy e => ?_⟩
  · rw [decide_eq_false hw, Option.isSome_eq_false_iff, Option.isNone_iff_eq_none] at hrows
    exact gp0Exec_unlisted w hm ha hrows
  · rw [decide_eq_true hw] at hrows
    obtain ⟨c, hc⟩ := Option.isSome_iff_exists.1 hrows
    rw [gp0Exec_header w hm ha hc]
    by_cases h1 : c.argc = 1
    · have hc' : c ≠ .imageLoad := by
        rintro rfl
        exact absurd h1 (by decide)
      obtain ⟨t, ht⟩ := Gp0Cmd.run_next hc' _
      exact ⟨t, (gp0Push_last (s := s.setGpu { s.gpu with opcode := field w 24 8, buf := [], argRemaining := c.argc })
        w hc h1).trans ht⟩
    · exact ⟨_, gp0Push_more w (s := s.setGpu { s.gpu with opcode := field w 24 8, buf := [], argRemaining := c.argc })
        fun h0 => h1 (by
          have h0 : c.argc - 1 = 0 := h0
          bv_omega)⟩
  · cases hm : s.gpu.mode with
    | imageLoad =>
      rw [gp0Exec_imageLoad w hm]
      nofun
    | command =>
      rw [gp0Exec_inFlight w hm (hbusy.resolve_left (by rw [hm]; nofun))]
      exact gp0Push_ne_unknownGpuOpcode w s e

end Sys2Proof.Machine

/-!
PROOFS. The GPU's control port (spec/51_gpu.md section 3).
-/

namespace Sys2Proof.Machine

theorem gp1Exec_of_effect {w : Word} {g : Gpu} {s : State} (h : gp1Effect w s.gpu = some g) :
    gp1Exec w s = .next (s.setGpu g) := by
  rw [gp1Exec, h]

/-! ## The effect of each opcode -/

section
variable {w : Word} (g : Gpu)

theorem gp1Effect_reset (h : field w 24 8 = 0x00#8) : gp1Effect w g = some (gp1Reset g) := by
  rw [gp1Effect, h]
  rfl

theorem gp1Effect_resetBuffer (h : field w 24 8 = 0x01#8) : gp1Effect w g = some (gp1ResetBuffer g) := by
  rw [gp1Effect, h]
  rfl

theorem gp1Effect_acknowledge (h : field w 24 8 = 0x02#8) :
    gp1Effect w g = some { g with status := setBit g.status 24 false } := by
  rw [gp1Effect, h]
  rfl

theorem gp1Effect_displayEnable (h : field w 24 8 = 0x03#8) :
    gp1Effect w g = some { g with status := setBit g.status 23 (w.getLsbD 0) } := by
  rw [gp1Effect, h]
  rfl

theorem gp1Effect_dmaDirection (h : field w 24 8 = 0x04#8) : gp1Effect w g = some (gp1DmaDirection w g) := by
  rw [gp1Effect, h]
  rfl

theorem gp1Effect_displayStart (h : field w 24 8 = 0x05#8) :
    gp1Effect w g = some { g with vramX := field w 0 10 &&& 0x3FE#10, vramY := field w 10 9 } := by
  rw [gp1Effect, h]
  rfl

theorem gp1Effect_horizontalRange (h : field w 24 8 = 0x06#8) :
    gp1Effect w g = some { g with hStart := field w 0 12, hEnd := field w 12 12 } := by
  rw [gp1Effect, h]
  rfl

theorem gp1Effect_verticalRange (h : field w 24 8 = 0x07#8) :
    gp1Effect w g = some { g with vStart := field w 0 10, vEnd := field w 10 10 } := by
  rw [gp1Effect, h]
  rfl

theorem gp1Effect_displayMode (h : field w 24 8 = 0x08#8) :
    gp1Effect w g = some { g with status := gp1DisplayMode w g.status } := by
  rw [gp1Effect, h]
  rfl

theorem gp1Effect_eq_none (h : 0x08 < (field w 24 8).toNat) : gp1Effect w g = none := by
  unfold gp1Effect
  split
  case h_10 => rfl
  all_goals next hop => exact absurd (hop ▸ h) (by decide)

end

theorem toNat_evenStart (w : Word) : (field w 0 10 &&& 0x3FE#10).toNat = w.toNat % 1024 / 2 * 2 := by
  have even : ∀ v : BitVec 10, v &&& 0x3FE#10 = (v >>> 1) <<< 1 := by
    intro v
    have mask : ∀ i < 10, (0x3FE#10).getLsbD i = decide (1 ≤ i) := by decide
    apply BitVec.eq_of_getLsbD_eq
    intro i hi
    rw [BitVec.getLsbD_and, mask i hi, BitVec.getLsbD_shiftLeft, BitVec.getLsbD_ushiftRight]
    by_cases h : 1 ≤ i
    · simp [h, hi, show ¬ i < 1 by omega, show 1 + (i - 1) = i by omega]
    · simp [h, show i < 1 by omega]
  rw [even, BitVec.toNat_shiftLeft, BitVec.toNat_ushiftRight, toNat_field, Nat.shiftLeft_eq, Nat.shiftRight_eq_div_pow,
    Nat.pow_zero, Nat.div_one]
  omega

/-- A command that changes the status word only. -/
theorem gp1Exec_status {w v : Word} {s : State} (h : gp1Effect w s.gpu = some { s.gpu with status := v }) :
    ∃ t, gp1Exec w s = .next t ∧ t = s.setGpu { s.gpu with status := t.gpu.status } ∧ t.gpu.status = v :=
  ⟨_, gp1Exec_of_effect h, rfl, rfl⟩

/-- Settles O59: each opcode's effect, the status words by their bits. -/
theorem gp1CommandsWriteTheirFields : Obligations.Gp1CommandsWriteTheirFields := by
  intro s w op st
  have other {k l : BitVec 8} {P : Prop} (hkl : k ≠ l) (hk : op = k) (hl : op = l) : P :=
    absurd (hk.symm.trans hl) hkl
  refine ⟨fun h => gp1Exec_of_effect (gp1Effect_reset s.gpu h), fun h => gp1Exec_of_effect (gp1Effect_resetBuffer s.gpu h),
    fun h => ?_, fun h => ?_, fun h => gp1Exec_of_effect (gp1Effect_horizontalRange s.gpu h),
    fun h => gp1Exec_of_effect (gp1Effect_verticalRange s.gpu h), fun h => ?_⟩
  · rcases h with h | h | h | h
    · obtain ⟨t, ht, hkeep, hst⟩ := gp1Exec_status (gp1Effect_acknowledge s.gpu h)
      refine ⟨t, ht, hkeep, fun _ k => ?_, other (by decide) h, other (by decide) h, other (by decide) h⟩
      rw [hst, getLsbD_setBit]
      by_cases hk : k = 24
      · rw [if_pos hk, hk]
        rfl
      · rw [if_neg hk, bne_iff_ne.2 hk, Bool.true_and]
    · obtain ⟨t, ht, hkeep, hst⟩ := gp1Exec_status (gp1Effect_displayEnable s.gpu h)
      refine ⟨t, ht, hkeep, other (by decide) h, fun _ k => ?_, other (by decide) h, other (by decide) h⟩
      rw [hst, getLsbD_setBit]
      by_cases hk : k = 23
      · rw [if_pos hk, if_pos hk, hk]
        rfl
      · rw [if_neg hk, if_neg hk]
    · obtain ⟨t, ht, hkeep, hst⟩ := gp1Exec_status (gp1Effect_dmaDirection s.gpu h)
      refine ⟨t, ht, hkeep, other (by decide) h, other (by decide) h, fun _ k => ?_, other (by decide) h⟩
      rw [hst, ← dmaRequest_field]
      exact getLsbD_gp1DmaDirection w s.gpu k
    · obtain ⟨t, ht, hkeep, hst⟩ := gp1Exec_status (gp1Effect_displayMode s.gpu h)
      refine ⟨t, ht, hkeep, other (by decide) h, other (by decide) h, other (by decide) h, fun _ k => ?_⟩
      rw [hst]
      exact getLsbD_gp1DisplayMode w s.gpu.status k
  · have hnext := gp1Exec_of_effect (gp1Effect_displayStart s.gpu h)
    exact ⟨_, hnext, rfl, toNat_evenStart w⟩
  · rw [gp1Exec, gp1Effect_eq_none s.gpu h]
    rfl

end Sys2Proof.Machine
